-- ==== Sys2Proof/Word.lean ====
section
/-! DEFINITION. The two bit vectors the manual treats as bits: the data bytes of a bus frame and the
11-bit bus identifier (chapter 10, R191; chapter 8, R165). Everything else in the part is a count, a
length, a duration or a named state, and is a `Nat`, an `Int` or an inductive type. -/

namespace Sys2Proof

/-- One data byte of a bus frame (R191). -/
abbrev Byte := BitVec 8

/-- An 11-bit bus identifier, 0x000 to 0x7FF (R165, R178). -/
abbrev Ident := BitVec 11

end Sys2Proof
end

