-- ==== Sys2Proof/Syntax.lean ====
section
/-! DEFINITION. The commands of the part: one constructor of `Instr` per row of spec/opcode_table.json, with
the row's operands. A row is either an event of the part (a line, a timer, the bus) or the taking of one
request by the dispatcher. The operands of a request are the bytes of the frame that waits in the request
FIFO (R168, R169), so the request rows carry none of their own. -/

namespace Sys2Proof

/-- The six channels (chapter 0, Channels and closures). -/
inductive Chan where
  | ch0 | ch1 | ch2 | ch3 | ch4 | ch5
  deriving DecidableEq, Repr

/-- The channels in ascending order. -/
def Chan.all : List Chan := [.ch0, .ch1, .ch2, .ch3, .ch4, .ch5]

def Chan.toNat : Chan → Nat
  | .ch0 => 0 | .ch1 => 1 | .ch2 => 2 | .ch3 => 3 | .ch4 => 4 | .ch5 => 5

/-- The channel a number names; none above 5. -/
def Chan.ofNat? : Nat → Option Chan
  | 0 => some .ch0 | 1 => some .ch1 | 2 => some .ch2
  | 3 => some .ch3 | 4 => some .ch4 | 5 => some .ch5 | _ => none

/-- The four master slots (R165). -/
inductive Slot where
  | s0 | s1 | s2 | s3
  deriving DecidableEq, Repr

/-- The slots in ascending order. -/
def Slot.all : List Slot := [.s0, .s1, .s2, .s3]

def Slot.toNat : Slot → Nat
  | .s0 => 0 | .s1 => 1 | .s2 => 2 | .s3 => 3

/-- The slot a number names; none above 3. -/
def Slot.ofNat? : Nat → Option Slot
  | 0 => some .s0 | 1 => some .s1 | 2 => some .s2 | 3 => some .s3 | _ => none

/-- One value for each channel. -/
structure PerChan (α : Type) where
  c0 : α
  c1 : α
  c2 : α
  c3 : α
  c4 : α
  c5 : α
  deriving DecidableEq, Repr

/-- The same value for every channel. -/
def PerChan.const {α : Type} (a : α) : PerChan α := ⟨a, a, a, a, a, a⟩

def PerChan.get {α : Type} (v : PerChan α) : Chan → α
  | .ch0 => v.c0 | .ch1 => v.c1 | .ch2 => v.c2 | .ch3 => v.c3 | .ch4 => v.c4 | .ch5 => v.c5

def PerChan.set {α : Type} (v : PerChan α) (c : Chan) (a : α) : PerChan α :=
  match c with
  | .ch0 => { v with c0 := a } | .ch1 => { v with c1 := a } | .ch2 => { v with c2 := a }
  | .ch3 => { v with c3 := a } | .ch4 => { v with c4 := a } | .ch5 => { v with c5 := a }

/-- The values a function gives for the channels. -/
def PerChan.ofFn {α : Type} (f : Chan → α) : PerChan α :=
  ⟨f .ch0, f .ch1, f .ch2, f .ch3, f .ch4, f .ch5⟩

/-- One value for each master slot. -/
structure PerSlot (α : Type) where
  v0 : α
  v1 : α
  v2 : α
  v3 : α
  deriving DecidableEq, Repr

/-- The same value for every slot. -/
def PerSlot.const {α : Type} (a : α) : PerSlot α := ⟨a, a, a, a⟩

def PerSlot.get {α : Type} (v : PerSlot α) : Slot → α
  | .s0 => v.v0 | .s1 => v.v1 | .s2 => v.v2 | .s3 => v.v3

def PerSlot.set {α : Type} (v : PerSlot α) (i : Slot) (a : α) : PerSlot α :=
  match i with
  | .s0 => { v with v0 := a } | .s1 => { v with v1 := a }
  | .s2 => { v with v2 := a } | .s3 => { v with v3 := a }

/-- The input lines whose levels the part takes over at the end of reset: each Hall line and strip line at
its first sample (R1, R43; `true` is high, and for a strip asserted), and the two bit-rate straps, BRS0
the lower digit (R164). -/
structure Pins where
  hallA : PerChan Bool
  hallB : PerChan Bool
  strip : PerChan Bool
  straps : BitVec 2
  deriving DecidableEq, Repr

/-- The identifier of a frame on the bus: 11 or 29 bits (R164). -/
inductive FrameId where
  | standard (id : Ident)
  | extended (id : BitVec 29)
  deriving DecidableEq, Repr

/-- A frame the bus brings to the part: its identifier, whether it is a remote frame, whether it was
received with an error, and its data bytes (R164). -/
structure BusFrame where
  ident : FrameId
  remote : Bool
  error : Bool
  data : List Byte
  deriving DecidableEq, Repr

/-- The commands of the part, one per row of spec/opcode_table.json, in the table's order. -/
inductive Instr where
  /-- R180: reset ends, with these lines at the first sample. -/
  | reset (pins : Pins)
  /-- R2: the Hall lines of a channel are sampled at the levels `a`, `b`, and at the same levels for up to
  `stable` further µs; the command ends at the sample at which a filter accepts a change. -/
  | hallTransition (c : Chan) (a b : Bool) (stable : Nat)
  /-- R43, R44: the STRIP line of a channel is sampled at `level` (`true` asserted), and at the same level for
  up to `stable` further µs; the command ends at the sample at which the filter accepts a change. -/
  | stripAsserted (c : Chan) (level : Bool) (stable : Nat)
  /-- R40 -/
  | stallTimerExpiry (c : Chan)
  /-- R86 -/
  | rampEnd (c : Chan)
  /-- R92 -/
  | brakeExpiry (c : Chan)
  /-- R89 -/
  | runTimeLimitExpiry (c : Chan)
  /-- R123 -/
  | holdTimerExpiry (c : Chan)
  /-- R125: the latch of one slot on one channel. -/
  | latchTimerExpiry (c : Chan) (slot : Slot)
  /-- R133 -/
  | admission
  /-- R134 -/
  | startSpacingExpiry
  /-- R160 -/
  | strikeWindowExpiry (c : Chan)
  /-- R74 -/
  | stagingTimerExpiry
  /-- R52 -/
  | vehicleDataHoldExpiry
  /-- R183 -/
  | configIdleExpiry
  /-- R177 -/
  | statusPeriodExpiry
  /-- R137: the code read from the battery-sense input, 0 to 1023. -/
  | batterySample (code : BitVec 10)
  /-- R143, R144: HOLDIN is sampled high, and stays so for up to `stable` further µs. -/
  | holdAsserted (stable : Nat)
  /-- R143, R147: HOLDIN is sampled low, and stays so for up to `stable` further µs. -/
  | holdReleased (stable : Nat)
  /-- R146 -/
  | holdLimitExpiry
  /-- R164, R166: a frame arrives from the bus. -/
  | frameReceived (f : BusFrame)
  /-- R118: the dispatcher takes the next request, a MOVE. -/
  | move
  /-- R128 -/
  | group
  /-- R126 -/
  | stop
  /-- R130 -/
  | reference
  /-- R114 -/
  | lockout
  /-- R131 -/
  | query
  /-- R51 -/
  | vehicle
  /-- R67 -/
  | profileRead
  /-- R68: the readout engine hands its next frame. -/
  | readoutFrameHanded
  /-- R72 -/
  | restoreBegin
  /-- R73 -/
  | restoreData
  /-- R75 -/
  | restoreEnd
  /-- R156 -/
  | incidentRead
  /-- R189 -/
  | clear
  /-- R184 -/
  | config
  /-- R185 -/
  | start
  /-- R187 -/
  | tune
  /-- R170: the dispatcher takes a request with no byte 0 or of an unknown kind. -/
  | unknownRequest
  /-- R174 -/
  | txOffer
  /-- R174 -/
  | txSent
  /-- R174 -/
  | txLostArbitration
  /-- R174 -/
  | txError
  /-- R175 -/
  | busQuietExpiry
  /-- R86 -/
  | rampDutyRecompute (c : Chan)
  deriving DecidableEq, Repr

end Sys2Proof
end

