-- ==== Sys2Proof/Config.lean ====
section
/-! DEFINITION. What the part fixes once for all and no request can change: fixed durations, capacities,
thresholds and the gate timing of the pin page. The spec leaves no value of the part open after an
operation, so there is no free value here. -/

namespace Sys2Proof.Config

/-- Microseconds in one ms of part time (R181: one clock gives both timebases). -/
def usPerMs : Nat := 1000
/-- Part time wraps at 2³² ms (R181). -/
def partTimeModulus : Nat := 4294967296
/-- Nominal battery voltage of the period correction, mV (R32). -/
def nominalMv : Nat := 13500
/-- Lower and upper bound of Vc, mV (R32). -/
def vcLow : Nat := 9000
def vcHigh : Nat := 16000
/-- Millivolts per code of the battery-sense input (R137). -/
def mvPerCode : Nat := 25
/-- Longest list of battery samples held (R137). -/
def maxSamples : Nat := 4
/-- Filter time of a STRIP line, µs (R43). -/
def stripFilter : Nat := 50
/-- Filter time of the HOLDIN line, µs (R143). -/
def holdFilter : Nat := 500
/-- An edge against the drive within this phase age, µs, is no REVERSE fault (R13). -/
def reverseGrace : Nat := 30000
/-- The edge age saturates here, µs (R10). -/
def maxPeriod : Nat := 65535
/-- Bounds of the position counter (R7). -/
def posMin : Int := -16384
def posMax : Int := 16383
/-- Bound of a Hall fault counter (R14). -/
def maxFaults : Nat := 255
/-- Bound of the settle-edge count (R26, R29). -/
def maxSettle : Nat := 63
/-- Bound of F and T, fu (R35, R36). -/
def maxForce : Nat := 1023
/-- Bound of the count of a run accumulator (R62). -/
def maxCount : Nat := 65535
/-- Bound of a strike count (R159). -/
def maxStrikes : Nat := 3
/-- Capacity of the incident list (R153). -/
def maxIncidents : Nat := 8
/-- Capacity of the urgent FIFO (R167), of the normal FIFO (R168) and of the transmit queue (R172). -/
def urgentCap : Nat := 4
def normalCap : Nat := 8
def txCap : Nat := 12
/-- The consecutive error that makes the port quiet (R175), and how long it stays so, ms. -/
def quietErrors : Nat := 16
def quietMs : Nat := 100
/-- Duration of the restore staging timer, ms (R71). -/
def stagingMs : Nat := 1000
/-- Duration of the config idle timer, ms (R183). -/
def configIdleMs : Nat := 3000
/-- Period of the bridge's pulse-width modulation and the dead time of a bridge change, µs (R190). -/
def pwmPeriodUs : Nat := 50
def deadTimeUs : Nat := 1

end Sys2Proof.Config
end

