-- ==== Sys2Proof/Machine/State.lean ====
section
/-! DEFINITION. Everything the part holds, as plain data, and its values after reset. Positions are `Int`,
counts, durations and forces `Nat`. Moments are kept as stamps of one clock: `clock` counts the µs since
the end of reset (R181), an age is the difference to a stamp, and a running ms timer is the ms of part
time, counted without the wrap, at which it expires (log entries 1 and 2). -/

namespace Sys2Proof.Machine

/-- A timer of the part in ms: stopped, or running until the part time given (R181). -/
abbrev Timer := Option Nat

/-! ### Input filters -/

/-- A stability interval: the µs of its first differing sample and the filter time it runs under (R1). -/
structure Interval where
  start : Nat
  time : Nat
  deriving DecidableEq, Repr

/-- The filter of one input line: its accepted level, and the stability interval if one runs (R1). -/
structure Filter where
  level : Bool
  since : Option Interval
  deriving DecidableEq, Repr

/-! ### Tuning (section 9.5) -/

inductive Axis where
  | oneSided | twoSided
  deriving DecidableEq, Repr

inductive ClosedEnd where
  | stall | position
  deriving DecidableEq, Repr

inductive RefEnd where
  | closed | negative
  deriving DecidableEq, Repr

inductive CountMode where
  | x1 | x2 | x4
  deriving DecidableEq, Repr

inductive CounterMode where
  | hold | wrap
  deriving DecidableEq, Repr

/-- The per-channel parameters 1 to 36, by the symbols of the manual where they have one. -/
structure ChanTuning where
  enable : Bool
  axis : Axis
  closedEnd : ClosedEnd
  refEnd : RefEnd
  countMode : CountMode
  polarity : Bool
  filter : Nat
  lo : Nat
  lt : Nat
  overtravel : Nat
  z : Nat
  b : Nat
  s : Nat
  softZone : Nat
  dr : Nat
  n : Nat
  ms : Nat
  q : Nat
  kf : Nat
  tb : Nat
  pdef : Nat
  mu : Nat
  mo : Nat
  ladapt : Nat
  pmin : Nat
  runDuty : Nat
  startDuty : Nat
  stopDuty : Nat
  limpDuty : Nat
  ramp : Nat
  brake : Nat
  ts : Nat
  tss : Nat
  runLimit : Nat
  holdTimeout : Nat
  stripEnable : Bool
  deriving DecidableEq, Repr

/-- The defaults of the per-channel parameters (section 9.5). -/
def ChanTuning.default : ChanTuning where
  enable := true
  axis := .oneSided
  closedEnd := .stall
  refEnd := .closed
  countMode := .x2
  polarity := false
  filter := 4
  lo := 6000
  lt := 0
  overtravel := 20
  z := 32
  b := 2000
  s := 60
  softZone := 40
  dr := 1500
  n := 4
  ms := 4
  q := 2
  kf := 512
  tb := 80
  pdef := 1000
  mu := 40
  mo := 100
  ladapt := 120
  pmin := 150
  runDuty := 1000
  startDuty := 400
  stopDuty := 500
  limpDuty := 600
  ramp := 80
  brake := 40
  ts := 60
  tss := 300
  runLimit := 8000
  holdTimeout := 300
  stripEnable := false

/-- The global parameters 64 to 79. -/
structure GlobalTuning where
  m : Nat
  spacing : Nat
  arough1 : Nat
  arough2 : Nat
  arough3 : Nat
  vehicleHold : Nat
  holdLimit : Nat
  autoResume : Bool
  strikeWindow : Nat
  th : Nat
  counterMode : CounterMode
  statusPeriod : Nat
  answerBase : Nat
  statusBase : Nat
  incidentId : Nat
  readoutId : Nat
  deriving DecidableEq, Repr

/-- The defaults of the global parameters (section 9.5). -/
def GlobalTuning.default : GlobalTuning where
  m := 3
  spacing := 150
  arough1 := 15
  arough2 := 35
  arough3 := 60
  vehicleHold := 1000
  holdLimit := 2000
  autoResume := true
  strikeWindow := 30
  th := 8
  counterMode := .hold
  statusPeriod := 100
  answerBase := 0x5C0
  statusBase := 0x5C8
  incidentId := 0x5CE
  readoutId := 0x5CF

/-- The rights a slot may hold (R110). -/
inductive Right where
  | move | stop | vehicle | lockout | service
  deriving DecidableEq, Repr

/-- One entry of the master slot table, parameters 96 to 100 (R165). The rights are the bits MOVE 0, STOP 1,
VEHICLE 2, LOCKOUT 3, SERVICE 4 of the rights value (section 9.5). -/
structure SlotEntry where
  enabled : Bool
  ident : Ident
  mask : Ident
  rank : Nat
  rights : BitVec 5
  deriving DecidableEq, Repr

/-! ### The channel -/

/-- The direction of an edge and of a motion (R3). -/
inductive Dir where
  | inc | dec
  deriving DecidableEq, Repr

/-- R18 -/
inductive Datum where
  | unreferenced | seeking | referenced
  deriving DecidableEq, Repr

/-- The fault summary: which Hall fault kinds have reached the threshold (R16). -/
structure FaultSet where
  step : Bool
  reverse : Bool
  speed : Bool
  deriving DecidableEq, Repr

/-- The drive-phase record: drive direction, the µs at which it began, edge-seen flag (R9). -/
structure Phase where
  dir : Dir
  began : Nat
  edgeSeen : Bool
  deriving DecidableEq, Repr

/-- R79 -/
inductive MotionState where
  | idle | queued | starting | running | braking | reversing | paused
  deriving DecidableEq, Repr

/-- R82 -/
inductive Bridge where
  | off | driveInc | driveDec | brake
  deriving DecidableEq, Repr

/-- Motion modes (R80). -/
inductive Mode where
  | express | hold | reference | reversal
  deriving DecidableEq, Repr

/-- The ends a motion can name (R84). -/
inductive GoalEnd where
  | toOpen | toClose | toTilt
  deriving DecidableEq, Repr

/-- The goal of a motion: an end or a target position (R80). -/
inductive Goal where
  | toEnd (e : GoalEnd)
  | target (t : Int)
  deriving DecidableEq, Repr

/-- What a channel does when its brake interval ends (R80); a MOTION follow-on carries the next owner, mode,
goal and the direction derived for it (R84). -/
inductive FollowOn where
  | none
  | reversal
  | motion (owner : Slot) (mode : Mode) (goal : Goal) (dir : Dir)
  deriving DecidableEq, Repr

/-- The two fields of the motion record that are present in BRAKING only (R80). -/
structure Brake where
  followOn : FollowOn
  ended : Bool
  deriving DecidableEq, Repr

/-- R80 -/
inductive PausedFrom where
  | starting | running | reversing | reversal | motion
  deriving DecidableEq, Repr

/-- The motion record (R80). `started` is the model's own: whether the motion has entered STARTING, which
R53 asks of a motion that waits in the start queue again. -/
structure Motion where
  mode : Mode
  dir : Dir
  goal : Option Goal
  owner : Option Slot
  braking : Option Brake
  pausedFrom : Option PausedFrom
  runTime : Nat
  incidentFree : Bool
  supplyNormal : Bool
  holdFree : Bool
  maxRough : Nat
  incidentRef : Option Nat
  started : Bool
  deriving DecidableEq, Repr

/-- R81; the order is that of the code table (R196). -/
inductive StopCause where
  | none | target | limit | closed | stop | timeout | runtime | pinch
  | stall | edge | supply | hold | hall | overtravel | lockout | referenced
  deriving DecidableEq, Repr

/-- The ramp timer: the ms of part time at which it started and at which the duty was last formed (R86). -/
structure Ramp where
  start : Nat
  last : Nat
  deriving DecidableEq, Repr

/-- The ownership record while an owner is present (R111). -/
structure Owner where
  slot : Slot
  pending : Bool
  mode : Mode
  goal : Option Goal
  dir : Dir
  deriving DecidableEq, Repr

/-- A hold latch: the end it holds and the part time at which its timer expires (R124). -/
structure Latch where
  goal : GoalEnd
  expires : Nat
  deriving DecidableEq, Repr

/-- A run accumulator of one zone (R62). -/
structure Accum where
  sum : Nat
  count : Nat
  deriving DecidableEq, Repr

/-- Everything one channel holds: its tuning; its travel counter (R1 to R25); its detector stage (R26); its
profile and run accumulators (R56, R62); its drive (R79 to R109); its part of the ownership unit (R111 to
R125); its strike count (R159). Five fields are the model's own: `hallSampled` and `stripSampled`, the µs
of the latest sample of the lines, since a line is sampled once a µs; `switched1` and `switched2`, the µs at
which the gates of a side of the bridge were last switched by a change of bridge state, for the dead time
(R82, R190); and `statusDue`, whether the step being taken has a STATUS of the channel to hand at its end
(R177, R197). -/
structure Channel where
  tune : ChanTuning
  hallA : Filter
  hallB : Filter
  hallSampled : Nat
  position : Int
  datum : Datum
  edged : Bool
  lastEdge : Option Nat
  phase : Option Phase
  stepFaults : Nat
  reverseFaults : Nat
  speedFaults : Nat
  summary : FaultSet
  ring : List Nat
  settled : Nat
  trips : Nat
  stallTimer : Timer
  lastF : Nat
  lastT : Nat
  strip : Filter
  stripSampled : Nat
  zones : List Nat
  accum : List Accum
  mstate : MotionState
  motion : Option Motion
  stopCause : StopCause
  bridge : Bridge
  switched1 : Option Nat
  switched2 : Option Nat
  duty : Nat
  runDuty : Nat
  ramp : Option Ramp
  brakeTimer : Timer
  runSince : Option Nat
  owner : Option Owner
  holdTimer : Timer
  latches : PerSlot (Option Latch)
  allowed : PerSlot Bool
  strikes : Nat
  strikeTimer : Timer
  statusDue : Bool
  deriving DecidableEq, Repr

/-! ### The blocks shared by the channels -/

/-- R153, R152: the causes of an incident. -/
inductive IncidentCause where
  | pinch | stall | edge
  deriving DecidableEq, Repr

/-- R154: the outcomes of a reversal. -/
inductive ReversalOutcome where
  | completed | cut | stalled | hall | none
  deriving DecidableEq, Repr

/-- An incident record (R152). `ref` is the model's own: the identity by which a reversal names its record
whatever place it has in the list (R154). -/
structure Incident where
  ref : Nat
  partTime : Nat
  chan : Chan
  cause : IncidentCause
  position : Int
  zone : Nat
  force : Option (Nat × Nat)
  supply : Nat
  roughness : Nat
  owner : Slot
  mode : Mode
  strikesAfter : Nat
  outcome : Option (ReversalOutcome × Int)
  deriving DecidableEq, Repr

/-- An entry of the urgent FIFO: the tagging slot and the channel mask of a STOP (R167). -/
structure StopRequest where
  slot : Slot
  mask : Byte
  deriving DecidableEq, Repr

/-- An entry of the normal FIFO: the tagging slot and the frame's data bytes (R168). -/
structure Request where
  slot : Slot
  data : List Byte
  deriving DecidableEq, Repr

/-- What a frame of the transmit queue is; it decides the class of R172. -/
inductive FrameTag where
  | incident
  | answer
  | incidentData
  | status (c : Chan)
  | readout
  deriving DecidableEq, Repr

/-- A frame the part sends: what it is, its identifier and its data bytes (R178, R193 to R195). -/
structure Frame where
  tag : FrameTag
  ident : Ident
  data : List Byte
  deriving DecidableEq, Repr

/-- A place of the transmit queue. `onBus` holds the content on the bus while the frame is in transmission;
`renewed` says that a STATUS was formed into the place during the attempt (R174). -/
structure TxEntry where
  frame : Frame
  onBus : Option Frame
  renewed : Bool
  deriving DecidableEq, Repr

/-- R138 -/
inductive Band where
  | normal | low | high
  deriving DecidableEq, Repr

/-- R182 -/
inductive PartState where
  | config | run
  deriving DecidableEq, Repr

/-- The readout snapshot (R67). -/
structure Snapshot where
  chan : Chan
  z : Nat
  lo : Nat
  lt : Nat
  entries : List Nat
  position : Int
  datum : Datum
  check : Nat
  deriving DecidableEq, Repr

/-- The readout engine while SENDING: the snapshot and the number of frames handed so far (R68). -/
structure Readout where
  snap : Snapshot
  handed : Nat
  deriving DecidableEq, Repr

/-- The restore staging buffer while LOADING (R71). -/
structure Staging where
  slot : Slot
  chan : Chan
  z : Nat
  lo : Nat
  lt : Nat
  expected : Nat
  entries : List Nat
  expires : Nat
  deriving DecidableEq, Repr

/-- The state of the part. `pending` is the queue of commands that wait, first in, first out; it and
`clock` and `nextRef` (the identity of the next incident record) are the model's own, and `nextSample` is
the ms of part time of the next battery sample (R137). -/
structure State where
  pending : List Instr
  clock : Nat
  channels : PerChan Channel
  globals : GlobalTuning
  slots : PerSlot SlotEntry
  bitRate : Nat
  urgent : List StopRequest
  normal : List Request
  txQueue : List TxEntry
  txErrors : Nat
  quietTimer : Timer
  statusTimer : Nat
  startQueue : List Chan
  spacingTimer : Timer
  readout : Option Readout
  staging : Option Staging
  samples : List Nat
  volts : Nat
  band : Band
  nextSample : Nat
  holdLine : Filter
  holdSampled : Nat
  holdLimitTimer : Timer
  limitExpired : Bool
  incidents : List Incident
  nextRef : Nat
  roughness : Nat
  vehicleTimer : Timer
  partState : PartState
  configTimer : Timer
  deriving DecidableEq, Repr

/-- Why the part stops with a fault. The spec names no operation after which the part stops, so there is no
fault to raise, and no step of the model answers one (safe: nothing stops). -/
inductive Fault where
  deriving DecidableEq, Repr

/-- Why the model has no meaning for a command. -/
inductive Refusal where
  /-- Raised by `exec` for a command whose meaning is not written; safe, since the machine stops there. -/
  | notModelled (mnemonic : String)
  deriving DecidableEq, Repr

/-! ### Reset -/

/-- A channel after reset, its lines at the levels given (R25, R26, R43, R56, R62, R109, R136, R163).
DESIGN CHOICE for runDuty, log entry 26. -/
def Channel.atReset (a b strip : Bool) : Channel where
  tune := .default
  hallA := ⟨a, none⟩
  hallB := ⟨b, none⟩
  hallSampled := 0
  position := 0
  datum := .unreferenced
  edged := false
  lastEdge := none
  phase := none
  stepFaults := 0
  reverseFaults := 0
  speedFaults := 0
  summary := ⟨false, false, false⟩
  ring := []
  settled := 0
  trips := 0
  stallTimer := none
  lastF := 0
  lastT := 80
  strip := ⟨strip, none⟩
  stripSampled := 0
  zones := List.replicate 32 0
  accum := List.replicate 32 ⟨0, 0⟩
  mstate := .idle
  motion := none
  stopCause := .none
  bridge := .off
  switched1 := none
  switched2 := none
  duty := 0
  runDuty := 0
  ramp := none
  brakeTimer := none
  runSince := none
  owner := none
  holdTimer := none
  latches := .const none
  allowed := .const true
  strikes := 0
  strikeTimer := none
  statusDue := false

/-- The slot table after reset (R165). -/
def resetSlots : PerSlot SlotEntry where
  v0 := ⟨true, 0x5B0#11, 0x7FF#11, 7, 31#5⟩
  v1 := ⟨false, 0x000#11, 0x7FF#11, 0, 0#5⟩
  v2 := ⟨false, 0x000#11, 0x7FF#11, 0, 0#5⟩
  v3 := ⟨false, 0x000#11, 0x7FF#11, 0, 0#5⟩

/-- The bit rate the straps select, kbit/s (R164). -/
def bitRateOf (straps : BitVec 2) : Nat :=
  match straps.toNat with
  | 0 => 125 | 1 => 250 | 2 => 500 | _ => 1000

/-- The part at the end of a reset at which its lines show these levels (R180). -/
def State.atReset (pins : Pins) : State where
  pending := []
  clock := 0
  channels :=
    ⟨.atReset pins.hallA.c0 pins.hallB.c0 pins.strip.c0, .atReset pins.hallA.c1 pins.hallB.c1 pins.strip.c1,
     .atReset pins.hallA.c2 pins.hallB.c2 pins.strip.c2, .atReset pins.hallA.c3 pins.hallB.c3 pins.strip.c3,
     .atReset pins.hallA.c4 pins.hallB.c4 pins.strip.c4, .atReset pins.hallA.c5 pins.hallB.c5 pins.strip.c5⟩
  globals := .default
  slots := resetSlots
  bitRate := bitRateOf pins.straps
  urgent := []
  normal := []
  txQueue := []
  txErrors := 0
  quietTimer := none
  statusTimer := 100
  startQueue := []
  spacingTimer := none
  readout := none
  staging := none
  samples := []
  volts := 13500
  band := .normal
  nextSample := 1
  holdLine := ⟨false, none⟩
  holdSampled := 0
  holdLimitTimer := none
  limitExpired := false
  incidents := []
  nextRef := 0
  roughness := 0
  vehicleTimer := none
  partState := .config
  configTimer := some 3000

/-- Line levels the spec does not give: all low, straps 00. DESIGN CHOICE, log entry 4. -/
def quietPins : Pins where
  hallA := .const false
  hallB := .const false
  strip := .const false
  straps := 0#2

/-- The part right after reset (R180), with the lines of log entry 4. -/
def State.reset : State := .atReset quietPins

end Sys2Proof.Machine
end

