-- ==== Sys2Proof/Machine/Operands.lean ====
section
/-! DEFINITION. What a command reads: the bytes of a request (chapter 10, R191, R192), the levels of the input
lines through their filters (R1 to R6), and the values of the tuning table (section 9.5, R187). -/

namespace Sys2Proof.Machine

/-! ### Bytes of a request -/

/-- Byte `i` of a frame, bytes numbered from 0 (R191). -/
def byteAt (d : List Byte) (i : Nat) : Nat := (d.getD i 0#8).toNat

/-- An unsigned 16-bit field, high byte first (R191). -/
def wordAt (d : List Byte) (i : Nat) : Nat := byteAt d i * 256 + byteAt d (i + 1)

/-- A signed 16-bit field, two's complement, high byte first (R191). -/
def signedAt (d : List Byte) (i : Nat) : Int :=
  if wordAt d i < 32768 then (wordAt d i : Int) else (wordAt d i : Int) - 65536

/-- Whether a channel mask names a channel: CHn in bit n (R191). -/
def inMask (mask : Nat) (c : Chan) : Bool := mask.testBit c.toNat

/-- Whether a slot mask names a slot: slot n in bit n (R191). -/
def inSlotMask (mask : Nat) (i : Slot) : Bool := mask.testBit i.toNat

/-- The channel mask of a set of channels (R191). -/
def maskOf (p : Chan → Bool) : Nat :=
  Chan.all.foldl (fun n c => if p c then n + 2 ^ c.toNat else n) 0

/-- The kinds of request (R192). -/
inductive RequestKind where
  | move | group | stop | reference | lockout | query | vehicle | profileRead
  | restoreBegin | restoreData | restoreEnd | incidentRead | clear | config | start | tune
  deriving DecidableEq, Repr

/-- The kind a byte 0 names (R192). -/
def RequestKind.ofCode : Nat → Option RequestKind
  | 1 => some .move | 2 => some .group | 3 => some .stop | 4 => some .reference
  | 5 => some .lockout | 6 => some .query | 7 => some .vehicle | 8 => some .profileRead
  | 9 => some .restoreBegin | 10 => some .restoreData | 11 => some .restoreEnd
  | 12 => some .incidentRead | 13 => some .clear | 14 => some .config | 15 => some .start
  | 16 => some .tune | _ => none

/-- The kind of a request: its byte 0, if it has one and the code is known (R170 check 1). -/
def kindOf (d : List Byte) : Option RequestKind :=
  if d.length = 0 then none else RequestKind.ofCode (byteAt d 0)

/-- The smallest data length the part takes for the kind; for MOVE it depends on byte 3 (R191, R192). -/
def RequestKind.minLength (d : List Byte) : RequestKind → Nat
  | .move => if byteAt d 3 = 3 then 6 else 4
  | .group => 3 | .stop => 2 | .reference => 2 | .lockout => 4 | .query => 2 | .vehicle => 2
  | .profileRead => 2 | .restoreBegin => 7 | .restoreData => 7 | .restoreEnd => 5
  | .incidentRead => 2 | .clear => 3 | .config => 1 | .start => 1 | .tune => 5

/-- The right the kind needs (R170). -/
def RequestKind.right : RequestKind → Option Right
  | .move => some .move | .group => some .move
  | .stop => some .stop | .reference => some .service | .lockout => some .lockout
  | .query => none | .vehicle => some .vehicle
  | .profileRead => some .service | .restoreBegin => some .service | .restoreData => some .service
  | .restoreEnd => some .service | .incidentRead => some .service | .clear => some .service
  | .config => some .service | .start => some .service | .tune => some .service

/-- The bit of the rights value that a right is (section 9.5). -/
def Right.bit : Right → Nat
  | .move => 0 | .stop => 1 | .vehicle => 2 | .lockout => 3 | .service => 4

/-- Whether a slot holds a right (R110). -/
def SlotEntry.holds (e : SlotEntry) (r : Right) : Bool := e.rights.getLsbD r.bit

/-- Whether a slot holds the right a kind needs; QUERY needs none (R110, R170). -/
def SlotEntry.mayAsk (e : SlotEntry) (k : RequestKind) : Bool :=
  match k.right with
  | none => true
  | some r => e.holds r

/-- Whether a frame's identifier matches a slot: equal at every position where the mask holds 1 (R166). -/
def SlotEntry.accepts (e : SlotEntry) (id : Ident) : Bool :=
  e.enabled && ((id ^^^ e.ident) &&& e.mask == 0#11)

/-- The first enabled slot that matches (R166). -/
def tagSlot (slots : PerSlot SlotEntry) (id : Ident) : Option Slot :=
  Slot.all.find? (fun i => (slots.get i).accepts id)

/-- The goal kind of a MOVE or GROUP: an end, or TARGET (R192). -/
inductive GoalKind where
  | toEnd (e : GoalEnd)
  | target
  deriving DecidableEq, Repr

def GoalKind.ofCode : Nat → Option GoalKind
  | 0 => some (.toEnd .toOpen) | 1 => some (.toEnd .toClose) | 2 => some (.toEnd .toTilt)
  | 3 => some .target | _ => none

/-- The mode of a MOVE (R192). -/
def moveModeOf : Nat → Option Mode
  | 0 => some .express | 1 => some .hold | _ => none

/-! ### Input lines -/

/-- One sample of a line at µs `t` with raw level `raw` under filter time `time`: at the accepted level the
filter is at rest and a running interval is abandoned; at the other level an interval starts, or runs
on under the time it started with (R1). -/
def Filter.see (f : Filter) (t : Nat) (raw : Bool) (time : Nat) : Filter :=
  if raw = f.level then { f with since := none }
  else match f.since with
    | none => { f with since := some ⟨t, time⟩ }
    | some _ => f

/-- The µs at which a filter accepts the change if the raw level stays (R1). -/
def Filter.due (f : Filter) : Option Nat := f.since.map fun i => i.start + i.time

/-- Whether a filter accepts a change at the sample of µs `t` (R1). -/
def Filter.accepts (f : Filter) (t : Nat) : Bool :=
  match f.due with
  | none => false
  | some d => d ≤ t

/-- The filter after the sample of µs `t`: an accepted change moves the accepted level (R1). -/
def Filter.settle (f : Filter) (t : Nat) : Filter :=
  if f.accepts t then ⟨!f.level, none⟩ else f

/-- The earlier of two moments that may be absent. -/
def earlier : Option Nat → Option Nat → Option Nat
  | none, y => y
  | x, none => x
  | some x, some y => some (min x y)

/-- The sense of a transition of the two Hall lines (R3). -/
inductive Rotation where
  | forward | backward
  deriving DecidableEq, Repr

/-- The sense of a single transition: forward along 00, 10, 11, 01, 00, which is when the new level of the
changed line A differs from B, or the new level of the changed line B equals A (R3). -/
def rotationOf (a b a' b' : Bool) : Rotation :=
  if a ≠ a' then (if a' ≠ b then .forward else .backward)
  else if b' = a then .forward else .backward

/-- Whether a single transition is counted (R4, R5, R6). -/
def CountMode.counts (m : CountMode) (a a' : Bool) : Bool :=
  match m with
  | .x1 => !a && a'
  | .x2 => a != a'
  | .x4 => true

/-- Polarity 0 counts a forward edge up, polarity 1 down (R3). -/
def edgeDir (polarity : Bool) : Rotation → Dir
  | .forward => if polarity then .dec else .inc
  | .backward => if polarity then .inc else .dec

/-! ### The tuning table -/

/-- The kinds of range of section 9.3; codes 0 to k are the span 0 to k. -/
inductive ParamRange where
  | span (low high : Nat)
  | members (ms : List Nat)
  deriving DecidableEq, Repr

/-- A value brought into a range: clamped to a span; in a set, the largest member not above the value, or
the smallest member (R187). The sets are listed in rising order. -/
def ParamRange.bringIn (v : Nat) : ParamRange → Nat
  | .span low high => max low (min v high)
  | .members ms => ms.foldl (fun best m => if m ≤ v then m else best) (ms.headD 0)

/-- The ranges of the per-channel parameters (section 9.5); none for a number not in the table. -/
def chanRange : Nat → Option ParamRange
  | 1 => some (.span 0 1) | 2 => some (.span 0 1) | 3 => some (.span 0 1) | 4 => some (.span 0 1)
  | 5 => some (.span 0 2) | 6 => some (.span 0 1) | 7 => some (.span 0 15)
  | 8 => some (.span 100 16000) | 9 => some (.span 0 4000) | 10 => some (.span 0 255)
  | 11 => some (.members [16, 32, 64]) | 12 => some (.span 0 16000) | 13 => some (.span 0 255)
  | 14 => some (.span 0 255) | 15 => some (.span 0 16000) | 16 => some (.members [1, 2, 4, 8])
  | 17 => some (.span 0 63) | 18 => some (.span 1 8) | 19 => some (.span 1 4095)
  | 20 => some (.span 1 1023) | 21 => some (.span 1 65535) | 22 => some (.span 0 255)
  | 23 => some (.span 0 255) | 24 => some (.span 0 1000) | 25 => some (.span 10 5000)
  | 26 => some (.span 100 1000) | 27 => some (.span 0 1000) | 28 => some (.span 0 1000)
  | 29 => some (.span 100 1000) | 30 => some (.span 0 500) | 31 => some (.span 5 200)
  | 32 => some (.span 10 500) | 33 => some (.span 50 1000) | 34 => some (.span 1000 20000)
  | 35 => some (.span 100 1000) | 36 => some (.span 0 1)
  | _ => none

/-- The ranges of the global parameters (section 9.5). -/
def globalRange : Nat → Option ParamRange
  | 64 => some (.span 1 6) | 65 => some (.span 0 500) | 66 => some (.span 0 255)
  | 67 => some (.span 0 255) | 68 => some (.span 0 255) | 69 => some (.span 100 5000)
  | 70 => some (.span 500 5000) | 71 => some (.span 0 1) | 72 => some (.span 5 120)
  | 73 => some (.span 1 255) | 74 => some (.span 0 1) | 75 => some (.span 20 1000)
  | 76 => some (.span 0 0x7FC) | 77 => some (.span 0 0x7F9) | 78 => some (.span 0 0x7FF)
  | 79 => some (.span 0 0x7FF)
  | _ => none

/-- The ranges of the slot parameters (section 9.5). -/
def slotRange : Nat → Option ParamRange
  | 96 => some (.span 0 1) | 97 => some (.span 0 0x7FF) | 98 => some (.span 0 0x7FF)
  | 99 => some (.span 0 7) | 100 => some (.span 0 31)
  | _ => none

def Axis.code : Axis → Nat
  | .oneSided => 0 | .twoSided => 1
def ClosedEnd.code : ClosedEnd → Nat
  | .stall => 0 | .position => 1
def RefEnd.code : RefEnd → Nat
  | .closed => 0 | .negative => 1
def CountMode.code : CountMode → Nat
  | .x1 => 0 | .x2 => 1 | .x4 => 2
def CounterMode.code : CounterMode → Nat
  | .hold => 0 | .wrap => 1

/-- The value a per-channel parameter holds. -/
def ChanTuning.read (t : ChanTuning) : Nat → Nat
  | 1 => t.enable.toNat | 2 => t.axis.code | 3 => t.closedEnd.code | 4 => t.refEnd.code
  | 5 => t.countMode.code | 6 => t.polarity.toNat | 7 => t.filter | 8 => t.lo | 9 => t.lt
  | 10 => t.overtravel | 11 => t.z | 12 => t.b | 13 => t.s | 14 => t.softZone | 15 => t.dr
  | 16 => t.n | 17 => t.ms | 18 => t.q | 19 => t.kf | 20 => t.tb | 21 => t.pdef | 22 => t.mu
  | 23 => t.mo | 24 => t.ladapt | 25 => t.pmin | 26 => t.runDuty | 27 => t.startDuty
  | 28 => t.stopDuty | 29 => t.limpDuty | 30 => t.ramp | 31 => t.brake | 32 => t.ts
  | 33 => t.tss | 34 => t.runLimit | 35 => t.holdTimeout | 36 => t.stripEnable.toNat
  | _ => 0

/-- Storing a value, already in range, into a per-channel parameter. -/
def ChanTuning.write (t : ChanTuning) (v : Nat) : Nat → ChanTuning
  | 1 => { t with enable := v = 1 }
  | 2 => { t with axis := if v = 0 then .oneSided else .twoSided }
  | 3 => { t with closedEnd := if v = 0 then .stall else .position }
  | 4 => { t with refEnd := if v = 0 then .closed else .negative }
  | 5 => { t with countMode := if v = 0 then .x1 else if v = 1 then .x2 else .x4 }
  | 6 => { t with polarity := v = 1 }
  | 7 => { t with filter := v } | 8 => { t with lo := v } | 9 => { t with lt := v }
  | 10 => { t with overtravel := v } | 11 => { t with z := v } | 12 => { t with b := v }
  | 13 => { t with s := v } | 14 => { t with softZone := v } | 15 => { t with dr := v }
  | 16 => { t with n := v } | 17 => { t with ms := v } | 18 => { t with q := v }
  | 19 => { t with kf := v } | 20 => { t with tb := v } | 21 => { t with pdef := v }
  | 22 => { t with mu := v } | 23 => { t with mo := v } | 24 => { t with ladapt := v }
  | 25 => { t with pmin := v } | 26 => { t with runDuty := v } | 27 => { t with startDuty := v }
  | 28 => { t with stopDuty := v } | 29 => { t with limpDuty := v } | 30 => { t with ramp := v }
  | 31 => { t with brake := v } | 32 => { t with ts := v } | 33 => { t with tss := v }
  | 34 => { t with runLimit := v } | 35 => { t with holdTimeout := v }
  | 36 => { t with stripEnable := v = 1 }
  | _ => t

/-- The value a global parameter holds. -/
def GlobalTuning.read (g : GlobalTuning) : Nat → Nat
  | 64 => g.m | 65 => g.spacing | 66 => g.arough1 | 67 => g.arough2 | 68 => g.arough3
  | 69 => g.vehicleHold | 70 => g.holdLimit | 71 => g.autoResume.toNat | 72 => g.strikeWindow
  | 73 => g.th | 74 => g.counterMode.code | 75 => g.statusPeriod | 76 => g.answerBase
  | 77 => g.statusBase | 78 => g.incidentId | 79 => g.readoutId
  | _ => 0

/-- Storing a value, already in range, into a global parameter. -/
def GlobalTuning.write (g : GlobalTuning) (v : Nat) : Nat → GlobalTuning
  | 64 => { g with m := v } | 65 => { g with spacing := v } | 66 => { g with arough1 := v }
  | 67 => { g with arough2 := v } | 68 => { g with arough3 := v } | 69 => { g with vehicleHold := v }
  | 70 => { g with holdLimit := v } | 71 => { g with autoResume := v = 1 }
  | 72 => { g with strikeWindow := v } | 73 => { g with th := v }
  | 74 => { g with counterMode := if v = 0 then .hold else .wrap }
  | 75 => { g with statusPeriod := v } | 76 => { g with answerBase := v }
  | 77 => { g with statusBase := v } | 78 => { g with incidentId := v }
  | 79 => { g with readoutId := v }
  | _ => g

/-- The value a slot parameter holds. -/
def SlotEntry.read (e : SlotEntry) : Nat → Nat
  | 96 => e.enabled.toNat | 97 => e.ident.toNat | 98 => e.mask.toNat | 99 => e.rank
  | 100 => e.rights.toNat
  | _ => 0

/-- Storing a value, already in range, into a slot parameter. -/
def SlotEntry.write (e : SlotEntry) (v : Nat) : Nat → SlotEntry
  | 96 => { e with enabled := v = 1 } | 97 => { e with ident := BitVec.ofNat 11 v }
  | 98 => { e with mask := BitVec.ofNat 11 v } | 99 => { e with rank := v }
  | 100 => { e with rights := BitVec.ofNat 5 v }
  | _ => e

/-- Lt as every bound reads it: 0 on a ONE-SIDED channel (R17, R60). -/
def ChanTuning.ltUsed (t : ChanTuning) : Nat :=
  match t.axis with
  | .oneSided => 0
  | .twoSided => t.lt

/-- The margin of a roughness level, Arough(R) (R36). -/
def GlobalTuning.arough (g : GlobalTuning) : Nat → Nat
  | 0 => 0 | 1 => g.arough1 | 2 => g.arough2 | _ => g.arough3

end Sys2Proof.Machine
end

