-- ==== Sys2Proof/Machine/Flags.lean ====
section
/-! DEFINITION. What the part shows: the codes and the bytes of every frame it sends (chapter 10, R191 to
R196; R176, R178), and the gate lines of a bridge (R82, R190). -/

namespace Sys2Proof.Machine

/-! ### Codes (R196) -/

/-- The outcomes an ANSWER carries (R196). -/
inductive Reply where
  | accepted | clamped | atTarget | busy | denied | locked | disabled | state | unref
  | supply | strikes | reversing | full | malformed | sequence | check | mismatch | posIgnored
  deriving DecidableEq, Repr

def Reply.code : Reply → Nat
  | .accepted => 0 | .clamped => 1 | .atTarget => 2 | .busy => 3 | .denied => 4 | .locked => 5
  | .disabled => 6 | .state => 7 | .unref => 8 | .supply => 9 | .strikes => 10 | .reversing => 11
  | .full => 12 | .malformed => 13 | .sequence => 14 | .check => 15 | .mismatch => 16
  | .posIgnored => 17

def StopCause.code : StopCause → Nat
  | .none => 0 | .target => 1 | .limit => 2 | .closed => 3 | .stop => 4 | .timeout => 5
  | .runtime => 6 | .pinch => 7 | .stall => 8 | .edge => 9 | .supply => 10 | .hold => 11
  | .hall => 12 | .overtravel => 13 | .lockout => 14 | .referenced => 15

def MotionState.code : MotionState → Nat
  | .idle => 0 | .queued => 1 | .starting => 2 | .running => 3 | .braking => 4
  | .reversing => 5 | .paused => 6

def Datum.code : Datum → Nat
  | .unreferenced => 0 | .seeking => 1 | .referenced => 2

def IncidentCause.code : IncidentCause → Nat
  | .pinch => 0 | .stall => 1 | .edge => 2

def Band.code : Band → Nat
  | .normal => 0 | .low => 1 | .high => 2

/-- The mode field of STATUS; 0 is absent (R194). -/
def Mode.statusCode : Mode → Nat
  | .express => 1 | .hold => 2 | .reference => 3 | .reversal => 4

/-- The mode field of INCIDENT_DATA_B (R195). -/
def Mode.incidentCode : Mode → Nat
  | .express => 0 | .hold => 1 | .reference => 2 | .reversal => 3

/-- The reversal outcome of INCIDENT_DATA_B; 0 is absent (R195). -/
def ReversalOutcome.code : ReversalOutcome → Nat
  | .completed => 1 | .cut => 2 | .stalled => 3 | .hall => 4 | .none => 5

/-- The owner field of STATUS: 0 absent, 1 to 4 not pending, 5 to 8 pending (R194). -/
def ownerCode : Option Owner → Nat
  | none => 0
  | some o => o.slot.toNat + (if o.pending then 5 else 1)

/-! ### Bytes (R191) -/

/-- `n` bytes of a number, high byte first (R191). -/
def bytesOf : Nat → Nat → List Byte
  | 0, _ => []
  | n + 1, v => BitVec.ofNat 8 (v / 256 ^ n) :: bytesOf n v

/-- A signed value as a field of `w` bits, two's complement (R191). -/
def field (w : Nat) (p : Int) : Nat := (p % (2 ^ w : Nat)).toNat

/-- A number as one byte. -/
def byteOf (n : Nat) : Byte := BitVec.ofNat 8 n

/-- A bit field laid above the bits already placed: `pack acc w v` shifts `acc` up by `w` and puts `v` below. -/
def pack (acc w v : Nat) : Nat := acc * 2 ^ w + v % 2 ^ w

/-! ### Frames -/

/-- An ANSWER: kind, outcome and the trailer of bytes 2 to 5, 0 where the trailer ends (R193). -/
def answerFrame (g : GlobalTuning) (slot : Slot) (kind : Nat) (r : Reply) (trailer : List Nat) : Frame where
  tag := .answer
  ident := BitVec.ofNat 11 (g.answerBase + slot.toNat)
  data := [byteOf kind, byteOf r.code, byteOf (trailer.getD 0 0), byteOf (trailer.getD 1 0),
    byteOf (trailer.getD 2 0), byteOf (trailer.getD 3 0)]

/-- The 64 bits of a STATUS frame (R176, R194). -/
def statusBits (c : Channel) (volts : Nat) (band : Band) : Nat :=
  let v := pack 0 3 c.mstate.code
  let v := pack v 3 ((c.motion.map (·.mode.statusCode)).getD 0)
  let v := pack v 2 c.datum.code
  let v := pack v 4 c.stopCause.code
  let v := pack v 4 (ownerCode c.owner)
  let v := pack v 15 (field 15 c.position)
  let v := pack v 2 c.strikes
  let v := pack v 1 c.summary.step.toNat
  let v := pack v 1 c.summary.reverse.toNat
  let v := pack v 1 c.summary.speed.toNat
  let v := pack v 10 c.lastF
  let v := pack v 10 c.lastT
  let v := pack v 2 band.code
  pack v 6 (volts / 500)

/-- The STATUS frame of a channel as the part stands (R176, R178, R194). -/
def statusFrame (s : State) (c : Chan) : Frame where
  tag := .status c
  ident := BitVec.ofNat 11 (s.globals.statusBase + c.toNat)
  data := bytesOf 8 (statusBits (s.channels.get c) s.volts s.band)

/-- The INCIDENT frame of a record at its append (R155, R194). -/
def incidentFrame (g : GlobalTuning) (r : Incident) : Frame where
  tag := .incident
  ident := BitVec.ofNat 11 g.incidentId
  data :=
    [byteOf (r.chan.toNat * 32 + r.cause.code * 8 + r.strikesAfter * 2),
     byteOf (r.owner.toNat * 64 + r.zone)]
    ++ bytesOf 2 (field 16 r.position)
    ++ bytesOf 2 ((r.force.map (·.1)).getD 0) ++ bytesOf 2 ((r.force.map (·.2)).getD 0)

/-- INCIDENT_DATA_A of the record at an index (R156, R195). -/
def incidentDataA (g : GlobalTuning) (slot : Slot) (index : Nat) (r : Incident) : Frame where
  tag := .incidentData
  ident := BitVec.ofNat 11 (g.answerBase + slot.toNat)
  data :=
    let v := pack 0 3 index
    let v := pack v 3 r.chan.toNat
    let v := pack v 2 r.cause.code
    let v := pack v 15 (r.partTime / 1000 % 32768)
    let v := pack v 15 (field 15 r.position)
    let v := pack v 6 r.zone
    let v := pack v 10 ((r.force.map (·.1)).getD 0)
    bytesOf 8 (pack v 10 ((r.force.map (·.2)).getD 0))

/-- INCIDENT_DATA_B of the record at an index, with the number of records held (R156, R195). -/
def incidentDataB (g : GlobalTuning) (slot : Slot) (index held : Nat) (r : Incident) : Frame where
  tag := .incidentData
  ident := BitVec.ofNat 11 (g.answerBase + slot.toNat)
  data :=
    [byteOf (index * 32 + r.roughness * 8 + r.owner.toNat * 2),
     byteOf (r.mode.incidentCode * 64 + r.strikesAfter * 16 + (r.outcome.map (·.1.code)).getD 0)]
    ++ bytesOf 2 r.supply
    ++ bytesOf 2 (field 16 ((r.outcome.map (·.2)).getD 0))
    ++ [byteOf held]

/-- The number of frames of a readout: header, Z/2 segments, end (R68). -/
def Snapshot.frames (n : Snapshot) : Nat := n.z / 2 + 2

/-- Frame `k` of a readout: 0 the header, then the segments, then the end frame (R68, R195). -/
def readoutFrame (g : GlobalTuning) (n : Snapshot) (k : Nat) : Frame where
  tag := .readout
  ident := BitVec.ofNat 11 g.readoutId
  data :=
    if k = 0 then
      [byteOf n.chan.toNat, byteOf n.chan.toNat, byteOf n.z] ++ bytesOf 2 n.lo ++ bytesOf 2 n.lt
    else if k ≤ n.z / 2 then
      [byteOf (64 + n.chan.toNat), byteOf n.chan.toNat, byteOf (k - 1)]
      ++ bytesOf 2 (n.entries.getD (2 * (k - 1)) 0) ++ bytesOf 2 (n.entries.getD (2 * (k - 1) + 1) 0)
    else
      [byteOf (128 + n.chan.toNat)] ++ bytesOf 2 (field 16 n.position)
      ++ [byteOf ((if n.datum = .referenced then 1 else 0) + n.datum.code * 2), byteOf n.check]

/-- The high byte plus the low byte of a 16-bit value. -/
def byteSum (v : Nat) : Nat := v / 256 % 256 + v % 256

/-- The check byte of a profile: Z, the bytes of Lo, Lt, the entries and the position, and the flag (R70, R76). -/
def checkByte (z lo lt : Nat) (entries : List Nat) (position : Int) (flag : Bool) : Nat :=
  (z + byteSum lo + byteSum lt + (entries.map byteSum).sum + byteSum (field 16 position) + flag.toNat) % 256

/-! ### Gate lines (R82, R190) -/

/-- What the part puts on one gate line: off, on, or switched 20 000 times a second with an on-time of the
duty in per mille of the 50 µs period. -/
inductive Gate where
  | off
  | on
  | switched (duty : Nat)
  deriving DecidableEq, Repr

/-- The gates of one side of a bridge, high and low. -/
structure Side where
  high : Gate
  low : Gate
  deriving DecidableEq, Repr

/-- GH1 and GL1 of a bridge state (R82). -/
def side1 (b : Bridge) (duty : Nat) : Side :=
  match b with
  | .off => ⟨.off, .off⟩
  | .driveInc => ⟨.switched duty, .off⟩
  | .driveDec => ⟨.off, .on⟩
  | .brake => ⟨.off, .on⟩

/-- GH2 and GL2 of a bridge state (R82). -/
def side2 (b : Bridge) (duty : Nat) : Side :=
  match b with
  | .off => ⟨.off, .off⟩
  | .driveInc => ⟨.off, .on⟩
  | .driveDec => ⟨.switched duty, .off⟩
  | .brake => ⟨.off, .on⟩

/-- The µs at which a side was last switched, after a change of bridge state at µs `now`: `now` where the change
gives the side other gates, and what it was where the side keeps them (R190). -/
def switchedAt (side : Bridge → Nat → Side) (now : Nat) (old new : Bridge) (last : Option Nat) : Option Nat :=
  if side old 0 = side new 0 then last else some now

/-- A side at µs `now` with the gates `on` that the bridge state gives: held off for the dead time after every
change of bridge state that switched it (R82, R190). DEDUCED, log entry 21. -/
def deadTime (last : Option Nat) (now : Nat) (on : Side) : Side :=
  if last.any (fun t => decide (now < t + Config.deadTimeUs)) then ⟨.off, .off⟩ else on

/-- The gate lines GH1, GL1 and GH2, GL2 of the channel at µs `now` (R82, R190). -/
def Channel.gatesAt (now : Nat) (c : Channel) : Side × Side :=
  (deadTime c.switched1 now (side1 c.bridge c.duty), deadTime c.switched2 now (side2 c.bridge c.duty))

/-- On-time of a switched gate in ns: the duty in per mille of 50 µs (R190). -/
def onTimeNs (duty : Nat) : Nat := duty * Config.pwmPeriodUs

end Sys2Proof.Machine
end

