-- ==== Sys2Proof/Machine/Ops.lean ====
section
/-! DEFINITION. The operations the meanings share, block by block: time, the transmit queue, one channel's travel
counter, detector, profile, drive and ownership, and the events that reach several blocks at once (stop
requests, incidents, grants, admissions, brake expiries, the hold line). Each cites the rules it follows.
Functions on `Channel` take `now`, the clock in µs. -/

namespace Sys2Proof.Machine

/-! ### Access -/

def State.ch (s : State) (c : Chan) : Channel := s.channels.get c

def State.setCh (s : State) (c : Chan) (ch : Channel) : State :=
  { s with channels := s.channels.set c ch }

/-- Changing one channel. -/
def State.modCh (s : State) (c : Chan) (f : Channel → Channel) : State := s.setCh c (f (s.ch c))

/-- Running an operation for CH0 to CH5 in ascending order. -/
def forChans (f : Chan → State → State) (s : State) : State := Chan.all.foldl (fun s c => f c s) s

/-! ### Time (R181) -/

/-- The ms since the end of reset, without the wrap. -/
def State.ms (s : State) : Nat := s.clock / Config.usPerMs

/-- Part time (R181). -/
def State.partTime (s : State) : Nat := s.ms % Config.partTimeModulus

/-- The clock at the moment `ms` of part time, or where it stands when that has passed: the moment an expiry
is taken (log entry 2). DESIGN CHOICE. -/
def State.waitUntil (s : State) (ms : Nat) : State := { s with clock := max s.clock (ms * Config.usPerMs) }

/-- One µs of the clock with nothing commanded (log entry 1). DESIGN CHOICE. -/
def tick (s : State) : State := { s with clock := s.clock + 1 }

/-- A timer started for `d` ms at µs `now` (R181). -/
def startTimer (now d : Nat) : Timer := some (now / Config.usPerMs + d)

/-! ### The transmit queue (R172 to R175) -/

/-- The rank of a frame's class: INCIDENT, ANSWER, STATUS, READOUT from the highest (R172). -/
def FrameTag.rank : FrameTag → Nat
  | .incident => 3 | .answer => 2 | .incidentData => 2 | .status _ => 1 | .readout => 0

/-- A frame joins behind every frame of its class or a higher one (R172). -/
def txInsert (f : Frame) : List TxEntry → List TxEntry
  | [] => [⟨f, none, false⟩]
  | e :: q => if f.tag.rank ≤ e.frame.tag.rank then e :: txInsert f q else ⟨f, none, false⟩ :: e :: q

/-- The frame that a frame of rank `r` evicts, with the queue without it. The queue runs from the highest
class to the lowest and within a class from the oldest, so the newest frame of the lowest class present is
the last one not in transmission; it gives way when it ranks below `r` (R173). DEDUCED, log entry 23. -/
def txEvict (r : Nat) : List TxEntry → Option (TxEntry × List TxEntry)
  | [] => none
  | e :: q =>
    match txEvict r q with
    | some (x, q') => some (x, e :: q')
    | none => if e.onBus = none ∧ e.frame.tag.rank < r ∧ q.all (fun x => x.onBus.isSome) then some (e, q) else none

/-- A readout frame has left the queue: with the end frame gone the snapshot is released (R69). -/
def readoutDeparted (s : State) : State :=
  match s.readout with
  | some r => if r.snap.frames ≤ r.handed then { s with readout := none } else s
  | none => s

/-- A frame of the INCIDENT or ANSWER class is handed to the queue: it joins, or evicts one frame and joins,
or is dropped (R173). -/
def handFrame (f : Frame) (s : State) : State :=
  if s.txQueue.length < Config.txCap then { s with txQueue := txInsert f s.txQueue }
  else match txEvict f.tag.rank s.txQueue with
    | some (x, q) =>
      let s := { s with txQueue := txInsert f q }
      if x.frame.tag = .readout then readoutDeparted s else s
    | none => s

/-- A STATUS of a channel whose STATUS is queued replaces it in place; a frame on the bus goes on with the
old content (R173, R174). -/
def txReplace (f : Frame) (q : List TxEntry) : List TxEntry :=
  q.map fun e => if e.frame.tag = f.tag then { e with frame := f, renewed := e.onBus.isSome } else e

/-- The STATUS of a channel is formed and handed to the queue (R173, R176). -/
def handStatus (c : Chan) (s : State) : State :=
  if s.txQueue.any (fun e => e.frame.tag = .status c) then
    { s with txQueue := txReplace (statusFrame s c) s.txQueue }
  else if s.txQueue.length < Config.txCap then { s with txQueue := txInsert (statusFrame s c) s.txQueue }
  else s

/-- The readout engine hands its next frame when none of its frames is in the queue and a place is free (R68). -/
def handReadout (s : State) : State :=
  match s.readout with
  | none => s
  | some r =>
    if r.handed < r.snap.frames ∧ s.txQueue.length < Config.txCap
        ∧ s.txQueue.all (fun e => e.frame.tag ≠ .readout) then
      { s with readout := some { r with handed := r.handed + 1 },
               txQueue := txInsert (readoutFrame s.globals r.snap r.handed) s.txQueue }
    else s

/-- The STATUS frames a step has triggered are handed at its end, one for each channel, in ascending channel
order (R177, R197). DEDUCED, log entry 25. -/
def flush (s : State) : State :=
  forChans (fun c s =>
    if (s.ch c).statusDue then handStatus c (s.modCh c fun ch => { ch with statusDue := false }) else s) s

/-- The frame in transmission, if any (R174). -/
def State.inTransmission (s : State) : Option TxEntry := s.txQueue.find? (fun e => e.onBus.isSome)

/-- An attempt ends and its frame leaves the queue, unless a STATUS was formed into its place meanwhile: then
the place keeps the new content (R174). -/
def txLeave (s : State) : State :=
  let gone := s.txQueue.any (fun e => e.onBus.isSome && !e.renewed && e.frame.tag = .readout)
  let q := (s.txQueue.filter fun e => e.onBus.isNone || e.renewed).map
    fun e => { e with onBus := none, renewed := false }
  let s := { s with txQueue := q }
  if gone then readoutDeparted s else s

/-- Changing the motion record of a channel, if it has one (R80). -/
def Channel.mapMotion (f : Motion → Motion) (c : Channel) : Channel := { c with motion := c.motion.map f }

/-! ### Setting a field that STATUS reports (R177) -/

/-- The motion state changes; leaving RUNNING ends a run of trips (R28, R79). -/
def Channel.setMState (m : MotionState) (c : Channel) : Channel :=
  { c with
    mstate := m
    trips := if c.mstate = .running ∧ m ≠ .running then 0 else c.trips
    statusDue := c.statusDue || decide (c.mstate ≠ m) }

/-- The datum changes; outside REFERENCED the trip count is 0 (R18, R31). -/
def Channel.setDatum (d : Datum) (c : Channel) : Channel :=
  { c with
    datum := d
    trips := if d = .referenced then c.trips else 0
    statusDue := c.statusDue || decide (c.datum ≠ d) }

/-- The fault summary changes (R16). -/
def Channel.setSummary (f : FaultSet) (c : Channel) : Channel :=
  { c with summary := f, statusDue := c.statusDue || decide (c.summary ≠ f) }

/-- The strike count changes (R161). -/
def Channel.setStrikes (n : Nat) (c : Channel) : Channel :=
  { c with strikes := n, statusDue := c.statusDue || decide (c.strikes ≠ n) }

/-- The three fault counters and the summary are cleared together (R16). -/
def Channel.clearFaults (c : Channel) : Channel :=
  ({ c with stepFaults := 0, reverseFaults := 0, speedFaults := 0 }).setSummary ⟨false, false, false⟩

/-- The strike count returns to 0 and its timer stops (R160). -/
def Channel.clearStrikes (c : Channel) : Channel := ({ c with strikeTimer := none }).setStrikes 0

/-- The owner stays the same slot, not pending before and after, which is no change of owner (R112). -/
def Owner.stays (o : Owner) (old : Option Owner) : Bool :=
  old.any fun x => decide (x.slot = o.slot) && !x.pending && !o.pending

/-- An owner is set; it queues STATUS unless the same slot stays owner, not pending before and after (R112). -/
def Channel.setOwner (o : Owner) (c : Channel) : Channel :=
  { c with
    owner := some o
    statusDue := c.statusDue || !o.stays c.owner }

/-! ### Direction, goals and classes (R40, R84, R88, R117) -/

/-- Driving in a direction at a position is driving toward 0 (R40). -/
def towardZero (axis : Axis) (d : Dir) (p : Int) : Bool :=
  match axis with
  | .oneSided => d = .dec
  | .twoSided => (d = .dec && decide (0 < p)) || (d = .inc && decide (p < 0))

/-- The direction of a bridge state, if it drives (R82). -/
def Bridge.dir : Bridge → Option Dir
  | .driveInc => some .inc
  | .driveDec => some .dec
  | _ => none

/-- The bridge state that drives in a direction (R82). -/
def Dir.bridge : Dir → Bridge
  | .inc => .driveInc
  | .dec => .driveDec

/-- The bridge of a channel drives toward 0 (R40). -/
def Channel.drivesTowardZero (c : Channel) : Bool :=
  match c.bridge.dir with
  | some d => towardZero c.tune.axis d c.position
  | none => false

/-- A target of 0 is held as the goal CLOSE (R84): so `goalDir` and `endCause` read it. The latch and `sameGrant` read
the goal as it is kept. DEDUCED, log entry 15. -/
def Goal.held : Goal → Goal
  | .target t => if t = 0 then .toEnd .toClose else .target t
  | g => g

/-- The direction a goal gives from a position, if it gives one (R84). -/
def goalDir (axis : Axis) (g : Goal) (p : Int) : Option Dir :=
  match g.held with
  | .toEnd .toOpen => some .inc
  | .toEnd .toTilt => some .dec
  | .toEnd .toClose =>
    match axis with
    | .oneSided => some .dec
    | .twoSided => if 0 < p then some .dec else if p < 0 then some .inc else none
  | .target t => if p < t then some .inc else if t < p then some .dec else none

/-- The direction of a master motion: its goal's, or DEC for a REFERENCE, which has no goal (R84). -/
def wishDir (axis : Axis) (g : Option Goal) (p : Int) : Option Dir :=
  match g with
  | some g => goalDir axis g p
  | none => some .dec

/-- The end condition that holds at a position, by the first line of R88's table. -/
def endCause (t : ChanTuning) (datum : Datum) (g : Goal) (d : Dir) (p : Int) : Option StopCause :=
  let closed : Bool :=
    match g.held with
    | .toEnd .toClose =>
      match t.axis with
      | .twoSided => decide (p = 0)
      | .oneSided => decide (t.closedEnd = .position ∧ p ≤ 0)
    | _ => false
  let reached : Bool :=
    match g.held with
    | .target x => (d = .inc && decide (x ≤ p)) || (d = .dec && decide (p ≤ x))
    | _ => false
  let limit : Bool :=
    decide (datum = .referenced) &&
      ((d = .inc && decide ((t.lo : Int) ≤ p)) ||
        (t.axis = .twoSided && d = .dec && decide (p ≤ -(t.lt : Int))))
  if closed then some .closed else if reached then some .target else if limit then some .limit else none

/-- The end condition the channel's motion meets; REFERENCE motions are not checked (R88). -/
def Channel.motionEnd (c : Channel) : Option StopCause :=
  match c.motion with
  | some m =>
    if m.mode = .reference then none
    else match m.goal with
      | some g => endCause c.tune c.datum g m.dir c.position
      | none => none
  | none => none

/-- The classes of a request or motion (R117). -/
inductive MoveClass where
  | close | tilt | opening | still
  deriving DecidableEq, Repr

/-- R117; a REFERENCE counts as a close whatever its direction. -/
def classify (axis : Axis) (reference : Bool) (d : Option Dir) (p : Int) : MoveClass :=
  if reference then .close
  else match d with
    | none => .still
    | some d =>
      if towardZero axis d p then .close
      else if axis = .twoSided ∧ d = .dec ∧ p ≤ 0 then .tilt
      else .opening

/-! ### Zones, adaptation and accumulators (R56 to R65) -/

/-- `ceil (a / b)`. -/
def ceilDiv (a b : Nat) : Nat := (a + b - 1) / b

/-- The zone of a position (R58, R59, R60). -/
def zoneOf (t : ChanTuning) (p : Int) : Nat :=
  match t.axis with
  | .oneSided => min (p.natAbs / ceilDiv t.lo t.z) (t.z - 1)
  | .twoSided =>
    let half := t.z / 2
    if 0 ≤ p then min (p.natAbs / ceilDiv t.lo half) (half - 1)
    else if t.lt = 0 then half
    else half + min (p.natAbs / ceilDiv t.lt half) (half - 1)

/-- The pair (z, A) joins the run accumulator of its zone; a full count takes no more (R62). -/
def accumulate (z a : Nat) (acc : List Accum) : List Accum :=
  acc.modify z fun x => if x.count = Config.maxCount then x else ⟨x.sum + a, x.count + 1⟩

/-- Every accumulator of the channel at 0 (R62). -/
def Channel.zeroAccum (c : Channel) : Channel := { c with accum := List.replicate c.tune.z ⟨0, 0⟩ }

/-- One zone at a clean close: the first average is taken whole; a later one within Ladapt moves Pref by an
eighth of the difference, truncated toward 0 (R65). -/
def adaptZone (ladapt : Nat) (pref : Nat) (x : Accum) : Nat :=
  if x.count = 0 then pref
  else
    let avg := x.sum / x.count
    if pref = 0 then avg
    else if ((avg : Int) - pref).natAbs ≤ ladapt then ((pref : Int) + ((avg : Int) - pref).tdiv 8).toNat
    else pref

/-- The motion that ends is a clean close (R64). -/
def cleanClose (cause : StopCause) (m : Motion) : Bool :=
  decide (cause = .closed) && m.incidentFree && m.supplyNormal && m.holdFree && decide (m.maxRough ≤ 1)

/-- The zone table adapts to the run (R65). -/
def Channel.adapt (c : Channel) : Channel :=
  { c with zones := List.zipWith (adaptZone c.tune.ladapt) c.zones c.accum }

/-- The end of a motion is handed to the profile store (R64) and to the incident list (R160), as the stop
cause and the flags stand (R107). -/
def Channel.handEnd (c : Channel) : Channel :=
  match c.motion with
  | none => c
  | some m =>
    let c := if cleanClose c.stopCause m then c.adapt else c
    if c.stopCause = .closed ∧ m.incidentFree = true then c.clearStrikes else c

/-! ### The bridge and the timers of the drive (R82, R83, R86, R89, R91) -/

/-- The bridge takes a state and a duty. Entering a driving state from any other begins a drive phase and
starts the stall timer with Tss; entering OFF or BRAKE ends both (R9, R39, R83). The sides whose gates change
are switched at this µs (R82, R190). -/
def Channel.setBridge (now : Nat) (b : Bridge) (duty : Nat) (c : Channel) : Channel :=
  if b = c.bridge then { c with duty := duty }
  else
    let c := { c with
      duty := duty
      switched1 := switchedAt side1 now c.bridge b c.switched1
      switched2 := switchedAt side2 now c.bridge b c.switched2
      bridge := b }
    match b.dir with
    | some d => { c with phase := some ⟨d, now, false⟩, stallTimer := startTimer now c.tune.tss }
    | none => { c with phase := none, stallTimer := none }

/-- Run-time counted up to now: what the record held and the ms driven since (R89). DEDUCED, log entry 20. -/
def Channel.runElapsed (now : Nat) (c : Channel) : Nat :=
  (c.motion.map (·.runTime)).getD 0 +
    (match c.runSince with
     | some t => now / Config.usPerMs - t
     | none => 0)

/-- The run-time timer freezes, its elapsed time kept in the record, up to the limit (R80, R89). -/
def Channel.freezeRun (now : Nat) (c : Channel) : Channel :=
  let e := min c.tune.runLimit (c.runElapsed now)
  { c.mapMotion (fun m => { m with runTime := e }) with runSince := none }

/-- Run-time becomes 0; a timer that counts goes on from 0 (R89). -/
def Channel.zeroRun (now : Nat) (c : Channel) : Channel :=
  { c.mapMotion (fun m => { m with runTime := 0 }) with
    runSince := c.runSince.map fun _ => now / Config.usPerMs }

/-- The duty in RUNNING: the run duty, and in the soft zone a duty falling to the stop duty (R87). -/
def Channel.runningDuty (c : Channel) : Nat :=
  if c.datum = .referenced ∧ c.drivesTowardZero ∧ 0 < c.tune.softZone
      ∧ c.position.natAbs ≤ c.tune.softZone then
    ((c.tune.stopDuty : Int) + (((c.runDuty : Int) - c.tune.stopDuty) * c.position.natAbs)
      / (c.tune.softZone : Int)).toNat
  else c.runDuty

/-- The duty is formed anew at the entry to RUNNING and at each counted edge in it (R87). -/
def Channel.refreshDuty (c : Channel) : Channel :=
  if c.mstate = .running then { c with duty := c.runningDuty } else c

/-- The entry to BRAKING: the bridge in BRAKE, the brake timer started, the ramp discarded, run-time frozen,
the record's brake fields set (R91). -/
def Channel.enterBraking (now : Nat) (b : Brake) (c : Channel) : Channel :=
  let c := (c.freezeRun now).mapMotion fun m => { m with braking := some b, pausedFrom := none }
  let c := { c with ramp := none, brakeTimer := startTimer now c.tune.brake }
  (c.setMState .braking).setBridge now .brake 0

/-! ### Owner, latch and the ends of motions (R107, R112, R124) -/

/-- A hold latch is set for a slot that ceases to own a HOLD motion with an end (R124). -/
def Channel.latch (now : Nat) (o : Owner) (c : Channel) : Channel :=
  match o.mode, o.goal with
  | .hold, some (.toEnd e) =>
    { c with latches := c.latches.set o.slot (some ⟨e, now / Config.usPerMs + c.tune.holdTimeout⟩) }
  | _, _ => c

/-- The owner is released; its hold timer stops, and a HOLD owner receives a latch unless its own hold timer
was the cause (R112, R122, R124). -/
def Channel.release (now : Nat) (latched : Bool) (c : Channel) : Channel :=
  match c.owner with
  | none => c
  | some o =>
    let c := if latched then c.latch now o else c
    { c.mapMotion (fun m => { m with owner := none }) with
      owner := none, holdTimer := none, statusDue := true }

/-- A seek that ends with another cause than REFERENCED leaves the datum UNREFERENCED (R21). DEDUCED, log entry 16. -/
def Channel.endSeek (cause : StopCause) (c : Channel) : Channel :=
  if c.datum = .seeking ∧ c.motion.map (·.mode) = some .reference ∧ cause ≠ StopCause.referenced then
    c.setDatum .unreferenced
  else c

/-- A motion ends with a cause: the cause is set, a seek is given up, the owner released (R81, R90). -/
def Channel.stopWith (now : Nat) (cause : StopCause) (c : Channel) : Channel :=
  (({ c with stopCause := cause }).endSeek cause).release now (decide (cause ≠ StopCause.timeout))

/-- The entry to IDLE: the end handed to the neighbours, the record removed, the bridge OFF, every timer of
the drive stopped, an owner not yet released released (R107). -/
def Channel.enterIdle (now : Nat) (c : Channel) : Channel :=
  let c := (c.handEnd).release now true
  let c := { c with motion := none, ramp := none, brakeTimer := none, runSince := none }
  (c.setMState .idle).setBridge now .off 0

/-- A motion ends through BRAKING with no follow-on (R90, R97, R100). -/
def Channel.endMotion (now : Nat) (cause : StopCause) (c : Channel) : Channel :=
  (c.stopWith now cause).enterBraking now ⟨.none, true⟩

/-- A motion that waits or is paused ends without a brake (R103, R105, R106). -/
def Channel.dropMotion (now : Nat) (cause : StopCause) (c : Channel) : Channel :=
  (c.stopWith now cause).enterIdle now

/-! ### Reversal outcomes and stop requests (R97 to R103) -/

/-- The outcome report of a reversal: its record, if still in the list, receives the outcome and the position
of the moment (R98, R154). -/
def reportOutcome (c : Chan) (o : ReversalOutcome) (s : State) : State :=
  match (s.ch c).motion.bind (·.incidentRef) with
  | none => s
  | some r =>
    { s with incidents := s.incidents.map fun x =>
        if x.ref = r ∧ x.outcome = none then { x with outcome := some (o, (s.ch c).position) } else x }

/-- Whether a stop acts on every motion, reversals included; the other causes are master-motion stops (R99). -/
def StopCause.stopsAll : StopCause → Bool
  | .stop | .hall | .overtravel => true
  | _ => false

/-- The outcome a stop gives a reversal: HALL for a threshold event or an overtravel, else CUT where the
reversal has driven and NONE where it has not (R97). -/
def stopOutcome (cause : StopCause) (driven : Bool) : ReversalOutcome :=
  if cause = .hall ∨ cause = .overtravel then .hall else if driven then .cut else .none

/-- A queued channel leaves the start queue for IDLE (R103). -/
def leaveQueue (c : Chan) (cause : StopCause) (s : State) : State :=
  let s := { s with startQueue := s.startQueue.filter (· ≠ c) }
  s.modCh c (·.dropMotion s.clock cause)

/-- A reversal ends through BRAKING (R96, R97); `cause` is absent where the incident's cause stays. -/
def endReversal (c : Chan) (cause : Option StopCause) (o : ReversalOutcome) (s : State) : State :=
  let s := reportOutcome c o s
  s.modCh c fun ch =>
    ({ ch with stopCause := cause.getD ch.stopCause }).enterBraking s.clock ⟨.none, true⟩

/-- The follow-on of a brake is cancelled and the brake ends the motion (R101). -/
def Channel.cancelFollowOn (now : Nat) (cause : StopCause) (c : Channel) : Channel :=
  { (c.release now (decide (cause ≠ StopCause.timeout))).mapMotion
      (fun m => { m with braking := some ⟨.none, true⟩ }) with stopCause := cause }

/-- A stop request reaches the drive of a channel (R99, R100, R101). -/
def stopRequest (c : Chan) (cause : StopCause) (s : State) : State :=
  let ch := s.ch c
  match ch.mstate with
  | .idle => s
  | .queued => leaveQueue c cause s
  | .starting | .running => s.modCh c (·.endMotion s.clock cause)
  | .reversing =>
    if cause.stopsAll then endReversal c (some cause) (stopOutcome cause true) s else s
  | .paused =>
    match ch.motion.bind (·.pausedFrom) with
    | some .reversing =>
      if cause.stopsAll then endReversal c (some cause) (stopOutcome cause true) s else s
    | some .reversal =>
      if cause.stopsAll then endReversal c (some cause) (stopOutcome cause false) s else s
    | _ => s.modCh c (·.endMotion s.clock cause)
  | .braking =>
    match ch.motion.bind (·.braking) with
    | some ⟨.reversal, _⟩ =>
      if cause.stopsAll then
        (reportOutcome c (stopOutcome cause false) s).modCh c (·.cancelFollowOn s.clock cause)
      else s
    | some ⟨.motion _ _ _ _, _⟩ => s.modCh c (·.cancelFollowOn s.clock cause)
    | _ => s

/-! ### Incidents (R47 to R49, R94, R152 to R155, R159) -/

def IncidentCause.stop : IncidentCause → StopCause
  | .pinch => .pinch
  | .stall => .stall
  | .edge => .edge

/-- The drive takes an incident report: BRAKING toward a reversal, the owner released, the record made the
reversal's; a SEEKING datum is lost (R21, R48, R49, R94). -/
def Channel.takeIncident (now : Nat) (cause : IncidentCause) (ref : Nat) (c : Channel) : Channel :=
  let c := { c with stopCause := cause.stop }
  let c := if c.datum = .seeking then c.setDatum .unreferenced else c
  ((c.release now true).enterBraking now ⟨.reversal, false⟩).mapMotion fun m =>
    { m with mode := .reversal, owner := none, goal := none, incidentRef := some ref, incidentFree := false }

/-- A record joins the list; at a full list the oldest leaves first (R153). -/
def appendIncident (r : Incident) (l : List Incident) : List Incident :=
  (if l.length < Config.maxIncidents then l else l.drop 1) ++ [r]

/-- The incident record a detector stage's report gives, the strike count already raised (R47, R152).
DESIGN CHOICE for an absent owner, log entry 19. -/
def incidentOf (s : State) (c : Chan) (cause : IncidentCause) (force : Option (Nat × Nat)) : Incident :=
  let ch := s.ch c
  { ref := s.nextRef
    partTime := s.partTime
    chan := c
    cause := cause
    position := ch.position
    zone := zoneOf ch.tune ch.position
    force := force
    supply := s.volts
    roughness := s.roughness
    owner := (ch.owner.map (·.slot)).getD .s0
    mode := (ch.motion.map (·.mode)).getD .express
    strikesAfter := min Config.maxStrikes (ch.strikes + 1)
    outcome := none }

/-- An incident is declared: the strike count rises and its window starts, the record joins the list, the
INCIDENT frame is queued, and the drive brakes toward a reversal, all at one event (R48, R49, R159). -/
def declareIncident (c : Chan) (cause : IncidentCause) (force : Option (Nat × Nat)) (s : State) : State :=
  let r := incidentOf s c cause force
  let s := s.modCh c fun ch =>
    ({ ch with strikeTimer := startTimer s.clock (s.globals.strikeWindow * 1000) }).setStrikes r.strikesAfter
  let s := { s with incidents := appendIncident r s.incidents, nextRef := s.nextRef + 1 }
  let s := handFrame (incidentFrame s.globals r) s
  s.modCh c (·.takeIncident s.clock cause r.ref)

/-- The strip trips (R44). -/
def Channel.stripTrips (c : Channel) : Bool :=
  c.tune.stripEnable && c.strip.level && decide (c.mstate = .starting ∨ c.mstate = .running) &&
    c.drivesTowardZero && !(decide (c.datum = .referenced) && decide (c.position.natAbs ≤ c.tune.s))

/-- The strip is judged; a trip brakes the bridge and declares an EDGE incident (R44, R45). -/
def judgeStrip (c : Chan) (s : State) : State :=
  if (s.ch c).stripTrips then declareIncident c .edge none s else s

/-! ### The travel counter (R7 to R17) -/

/-- The position one count on, held at its bounds (R7). -/
def stepPosition (p : Int) : Dir → Int
  | .inc => if p < Config.posMax then p + 1 else p
  | .dec => if Config.posMin < p then p - 1 else p

/-- The edge age at µs `now`, saturating; absent before the first edge (R10). -/
def Channel.edgeAge (now : Nat) (c : Channel) : Option Nat :=
  c.lastEdge.map fun t => min Config.maxPeriod (now - t)

/-- The period a counted edge carries: its edge age, when an edge of the same drive phase came before (R10). -/
def Channel.edgePeriod (now : Nat) (c : Channel) : Option Nat :=
  match c.phase with
  | some ph => if ph.edgeSeen then c.edgeAge now else none
  | none => none

/-- The edge is against the drive more than 30 ms into its phase (R13). -/
def Channel.reverseFault (now : Nat) (d : Dir) (c : Channel) : Bool :=
  match c.phase with
  | some ph => decide (d ≠ ph.dir) && decide (Config.reverseGrace < now - ph.began)
  | none => false

/-- A Hall fault counter raised by 1: at 255 it stays in HOLD and wraps in WRAP (R14). -/
def raiseCounter (m : CounterMode) (n : Nat) : Nat :=
  if n < Config.maxFaults then n + 1
  else match m with
    | .hold => n
    | .wrap => 0

/-- A counter raised when `fault` holds, and whether the raise made it equal to Th (R14, R15). -/
def countFault (m : CounterMode) (th : Nat) (fault : Bool) (n : Nat) : Nat × Bool :=
  if fault then (raiseCounter m n, decide (raiseCounter m n = th ∧ n ≠ th)) else (n, false)

/-- The faults of one edge or STEP fault are counted. A counter that becomes equal to Th makes the one
threshold event: its kind joins the summary, the datum is lost and the motion stops with HALL (R14, R15). -/
def countFaults (c : Chan) (step reverse speed : Bool) (s : State) : State :=
  let ch := s.ch c
  let m := s.globals.counterMode
  let th := s.globals.th
  let (nStep, xStep) := countFault m th step ch.stepFaults
  let (nRev, xRev) := countFault m th reverse ch.reverseFaults
  let (nSpeed, xSpeed) := countFault m th speed ch.speedFaults
  let s := s.modCh c fun ch => { ch with stepFaults := nStep, reverseFaults := nRev, speedFaults := nSpeed }
  if xStep || xRev || xSpeed then
    let s := s.modCh c fun ch =>
      (ch.setSummary ⟨ch.summary.step || xStep, ch.summary.reverse || xRev,
        ch.summary.speed || xSpeed⟩).setDatum .unreferenced
    stopRequest c .hall s
  else s

/-- A position outside −(Lt + To) to Lo + To (R17). -/
def outOfTravel (t : ChanTuning) (p : Int) : Bool :=
  decide ((t.lo : Int) + t.overtravel < p) || decide (p < -((t.ltUsed : Int) + t.overtravel))

/-- The overtravel check of a REFERENCED channel (R17). -/
def checkOvertravel (c : Chan) (s : State) : State :=
  let ch := s.ch c
  if ch.datum = .referenced ∧ outOfTravel ch.tune ch.position then
    stopRequest c .overtravel (s.modCh c (·.setDatum .unreferenced))
  else s

/-! ### The per-edge computation (R27 to R38) -/

/-- Stage 1: the period corrected for the battery voltage (R32). -/
def correctedPeriod (p volts : Nat) : Nat :=
  let vc := max Config.vcLow (min volts Config.vcHigh)
  max 1 (min Config.maxPeriod ((p * vc + 6750) / Config.nominalMv))

/-- Stage 2: the ring with a corrected period at its newest end; past N entries the oldest leaves (R33). -/
def pushRing (n pc : Nat) (ring : List Nat) : List Nat :=
  let r := ring ++ [pc]
  if n < r.length then r.drop 1 else r

/-- Stage 4: the force estimate of an average against its reference (R35). -/
def forceOf (a r0 kf : Nat) : Nat := min Config.maxForce ((a - r0) * kf / 256)

/-- Stage 5: the threshold (R36). -/
def thresholdOf (tb arough mu mo : Nat) : Nat := max 1 (min Config.maxForce (tb + arough + mu + mo))

/-- The stage is armed at a fed edge (R31); `closing` says that the edge is a closing edge. -/
def Channel.armed (closing : Bool) (c : Channel) : Bool :=
  decide (c.mstate = .running) && decide (c.datum = .referenced) && closing
    && decide (c.tune.s < c.position.natAbs) && decide (c.position.natAbs ≤ c.tune.b)
    && decide (c.tune.ms ≤ c.settled) && decide (c.ring.length = c.tune.n)

/-- Stages 3 to 6 on a channel whose ring is full (R34 to R38). `arough` is Arough of the roughness level;
the answer says whether a PINCH is declared. -/
def Channel.qualify (arough : Nat) (closing : Bool) (c : Channel) : Channel × Bool :=
  let a := c.ring.sum / c.tune.n
  let z := zoneOf c.tune c.position
  let pref := c.zones.getD z 0
  let f := forceOf a (if pref = 0 then c.tune.pdef else pref) c.tune.kf
  let t := thresholdOf c.tune.tb arough (if pref = 0 then c.tune.mu else 0)
    (if c.strikes = Config.maxStrikes ∧ c.motion.map (·.mode) = some .hold then c.tune.mo else 0)
  let armed := c.armed closing
  let c : Channel := { c with
    lastF := f
    lastT := t
    accum := if armed then accumulate z a c.accum else c.accum }
  if armed && decide (t ≤ f) then
    if c.tune.q ≤ c.trips + 1 then ({ c with trips := 0 }, true)
    else ({ c with trips := c.trips + 1 }, false)
  else ({ c with trips := 0 }, false)

/-- A fed edge: stages 1 and 2, and the rest once the ring is full (R30, R33). -/
def Channel.fed (volts arough : Nat) (closing : Bool) (p : Nat) (c : Channel) : Channel × Bool :=
  let c := { c with ring := pushRing c.tune.n (correctedPeriod p volts) c.ring }
  if c.ring.length < c.tune.n then ({ c with trips := 0 }, false) else c.qualify arough closing

/-- The detector stage takes an edge report: no computation outside RUNNING, settle edges first, then fed
edges; an edge without a period is not fed (R27, R29, R30). -/
def Channel.detect (volts arough : Nat) (closing : Bool) (period : Option Nat) (c : Channel) : Channel × Bool :=
  if c.mstate ≠ .running then ({ c with trips := 0 }, false)
  else if c.settled < c.tune.ms then
    ({ c with settled := min Config.maxSettle (c.settled + 1), trips := 0 }, false)
  else match period with
    | none => ({ c with trips := 0 }, false)
    | some p => c.fed volts arough closing p

/-! ### The edge report (R11) -/

/-- A counted edge restarts the stall timer with Ts while the bridge drives (R39). -/
def Channel.restartStall (now : Nat) (c : Channel) : Channel :=
  if c.bridge.dir.isSome then { c with stallTimer := startTimer now c.tune.ts } else c

/-- The drive acts on an edge report: the end conditions in STARTING and RUNNING, the soft-zone duty, the
target in REVERSING (R87, R88, R96). -/
def driveEdge (c : Chan) (s : State) : State :=
  let ch := s.ch c
  match ch.mstate with
  | .starting | .running =>
    match ch.motionEnd with
    | some cause => s.modCh c (·.endMotion s.clock cause)
    | none => s.modCh c (·.refreshDuty)
  | .reversing =>
    match ch.motion with
    | some m =>
      match m.goal with
      | some (.target t) =>
        if (m.dir = .inc ∧ t ≤ ch.position) ∨ (m.dir = .dec ∧ ch.position ≤ t) then
          endReversal c none .completed s
        else s
      | _ => s
    | none => s
  | _ => s

/-- The detector's part of an edge report, a PINCH declared at it included (R37, R47). -/
def detectEdge (c : Chan) (closing : Bool) (period : Option Nat) (s : State) : State :=
  let x := (s.ch c).detect s.volts (s.globals.arough s.roughness) closing period
  let s := s.setCh c x.1
  if x.2 then declareIncident c .pinch (some (x.1.lastF, x.1.lastT)) s else s

/-- The edge report is handed to the detector stage and to the drive (R11, R39, R44). DEDUCED order, log entry 17. -/
def edgeReport (c : Chan) (closing : Bool) (period : Option Nat) (s : State) : State :=
  let s := s.modCh c (·.restartStall s.clock)
  let s := judgeStrip c s
  let s := detectEdge c closing period s
  driveEdge c s

/-- A counted edge, whole and in the order of R11: position, flags and period; faults and their threshold
event; overtravel; the report. -/
def countEdge (c : Chan) (d : Dir) (s : State) : State :=
  let ch := s.ch c
  let p := stepPosition ch.position d
  let closing := decide (p.natAbs < ch.position.natAbs)
  let period := ch.edgePeriod s.clock
  let speed := match period with
    | some t => decide (t < ch.tune.pmin)
    | none => false
  let reverse := ch.reverseFault s.clock d
  let s := s.modCh c fun ch =>
    { ch with
      position := p
      edged := true
      lastEdge := some s.clock
      phase := ch.phase.map fun ph => { ph with edgeSeen := true } }
  let s := countFaults c false reverse speed s
  let s := checkOvertravel c s
  edgeReport c closing period s

/-- A transition of the accepted Hall levels, old pair to new pair: both lines changed is a STEP fault; a
single one is counted or not by the count mode (R2 to R6). -/
def hallPair (c : Chan) (a b a' b' : Bool) (s : State) : State :=
  let t := (s.ch c).tune
  if a ≠ a' ∧ b ≠ b' then countFaults c true false false s
  else if a = a' ∧ b = b' then s
  else if t.countMode.counts a a' then countEdge c (edgeDir t.polarity (rotationOf a b a' b')) s
  else s

/-- The Hall lines of a channel are sampled at raw levels `a`, `b` from the next free µs on, for up to `stable`
further µs. Without an acceptance only the filters change; at the first acceptance the command ends and
the transition is judged (R1, R2). DESIGN CHOICE, log entry 6. -/
def sampleHall (c : Chan) (a b : Bool) (stable : Nat) (s : State) : State :=
  let ch := s.ch c
  let t0 := max s.clock (ch.hallSampled + 1)
  let fa := ch.hallA.see t0 a ch.tune.filter
  let fb := ch.hallB.see t0 b ch.tune.filter
  let rest (t : Nat) : State :=
    ({ s with clock := t }).modCh c fun ch => { ch with hallA := fa, hallB := fb, hallSampled := t }
  match earlier fa.due fb.due with
  | none => rest (t0 + stable)
  | some d =>
    if t0 + stable < d then rest (t0 + stable)
    else
      let t := max t0 d
      let fa' := fa.settle d
      let fb' := fb.settle d
      let s := ({ s with clock := t }).modCh c fun ch => { ch with hallA := fa', hallB := fb', hallSampled := t }
      hallPair c fa.level fb.level fa'.level fb'.level s

/-- One line sampled at `raw` from µs `t0` on for up to `stable` further µs: the filter after, the µs reached,
and whether a change was accepted (R1). -/
def Filter.sampleRun (f : Filter) (t0 : Nat) (raw : Bool) (time stable : Nat) : Filter × Nat × Bool :=
  let f := f.see t0 raw time
  match f.due with
  | none => (f, t0 + stable, false)
  | some d => if t0 + stable < d then (f, t0 + stable, false) else (f.settle d, max t0 d, true)

/-- The STRIP line of a channel is sampled; when its filter accepts a change, the strip is judged (R43, R44).
DESIGN CHOICE, log entry 6. -/
def sampleStrip (c : Chan) (level : Bool) (stable : Nat) (s : State) : State :=
  let ch := s.ch c
  let x := ch.strip.sampleRun (max s.clock (ch.stripSampled + 1)) level Config.stripFilter stable
  let s := ({ s with clock := x.2.1 }).modCh c fun ch => { ch with strip := x.1, stripSampled := x.2.1 }
  if x.2.2 then judgeStrip c s else s

/-! ### Stalls (R20, R22, R40, R41) -/

/-- The classes of a stall (R40). -/
inductive StallClass where
  | referenceEnd | stalledReversal | closedEnd | incident | plain
  deriving DecidableEq, Repr

/-- The class of a stall, by the first line of R40's list that holds. -/
def Channel.stallClass (c : Channel) : StallClass :=
  if c.datum = .seeking then .referenceEnd
  else if c.mstate = .reversing then .stalledReversal
  else if c.drivesTowardZero = true ∧ c.tune.closedEnd = .stall
      ∧ (c.datum = .unreferenced ∨ c.position.natAbs ≤ c.tune.s) then .closedEnd
  else if c.mstate = .running ∧ c.drivesTowardZero = true ∧ c.datum = .referenced
      ∧ c.tune.s < c.position.natAbs ∧ c.position.natAbs ≤ c.tune.b then .incident
  else .plain

/-- The position and the datum are set at the end a stall has found (R20, R22). -/
def Channel.datumFound (p : Int) (c : Channel) : Channel :=
  (({ c with position := p }).setDatum .referenced).clearFaults

/-- The position of the reference end (R20). -/
def ChanTuning.referencePosition (t : ChanTuning) : Int :=
  match t.refEnd with
  | .closed => 0
  | .negative => -(t.ltUsed : Int)

/-- A stall is classified and acted on (R40, R41). -/
def stall (c : Chan) (s : State) : State :=
  let ch := s.ch c
  match ch.stallClass with
  | .referenceEnd =>
    s.modCh c fun ch => (ch.datumFound ch.tune.referencePosition).endMotion s.clock .referenced
  | .stalledReversal => endReversal c (some .stall) .stalled s
  | .closedEnd => s.modCh c fun ch => (ch.datumFound 0).endMotion s.clock .closed
  | .incident => declareIncident c .stall none s
  | .plain => s.modCh c (·.endMotion s.clock .stall)

/-! ### Starting and running (R85, R86) -/

/-- The entry to RUNNING: ring emptied, settle-edge and trip counts 0, the ramp over (R28, R86). -/
def Channel.enterRunning (c : Channel) : Channel :=
  { c.setMState .running with ring := [], settled := 0, trips := 0, ramp := none }

/-- The duty a motion runs at: limp for a REFERENCE or without the datum, else the run duty (R85, R96). -/
def Channel.chosenDuty (reference : Bool) (c : Channel) : Nat :=
  if reference = true ∨ c.datum ≠ .referenced then c.tune.limpDuty else c.tune.runDuty

/-- The entry to STARTING of the motion `m`: run duty chosen, accumulators at 0, roughness and supply noted in
the record, run-time resumed, a seek begun, the bridge driving; with ramp time 0 the channel passes on to
RUNNING at once (R19, R53, R62, R63, R83, R85). With a ramp the ring keeps its contents until the entry to RUNNING (R28,
R50, R86), though R105 and R148 name the entry to STARTING of a resumed motion for its emptying. DEDUCED, log entry 29. -/
def Channel.enterStarting (now level : Nat) (normal : Bool) (m : Motion) (c : Channel) : Channel :=
  let rd := c.chosenDuty (decide (m.mode = .reference))
  let c := ({ c with
    motion := some { m with
      started := true
      maxRough := max m.maxRough level
      supplyNormal := m.supplyNormal && normal }
    runDuty := rd
    ramp := some ⟨now / Config.usPerMs, now / Config.usPerMs⟩
    runSince := some (now / Config.usPerMs) }).zeroAccum
  let c := if m.mode = .reference then c.setDatum .seeking else c
  let c := c.setMState .starting
  if c.tune.ramp = 0 then (c.enterRunning.setBridge now m.dir.bridge rd).refreshDuty
  else c.setBridge now m.dir.bridge c.tune.startDuty

/-- The direction of record and owner, derived again; where the goal gives none, each keeps its own (R84). -/
def Channel.setDir (d : Option Dir) (c : Channel) : Channel :=
  { c.mapMotion (fun m => { m with dir := d.getD m.dir }) with
    owner := c.owner.map (fun o => { o with dir := d.getD o.dir }) }

/-- The admitted channel `c`, already out of the queue, is taken into STARTING, or its motion ends without
driving when an end condition holds; the start spacing follows a start only (R84, R85, R134). -/
def admitHead (c : Chan) (s : State) : State :=
  let s := s.modCh c fun ch =>
    match ch.motion with
    | some m => ch.setDir (wishDir ch.tune.axis m.goal ch.position)
    | none => ch
  let ch := s.ch c
  match ch.motionEnd, ch.motion with
  | some cause, _ => s.modCh c (·.dropMotion s.clock cause)
  | none, some m =>
    let s := s.modCh c (·.enterStarting s.clock s.roughness (decide (s.band = .normal)) m)
    let s := { s with
      spacingTimer := if s.globals.spacing = 0 then none else startTimer s.clock s.globals.spacing }
    judgeStrip c s
  | none, none => s

/-- The number of channels in STARTING, RUNNING or REVERSING (R133). -/
def State.driving (s : State) : Nat :=
  (Chan.all.filter fun c =>
    (s.ch c).mstate = .starting || (s.ch c).mstate = .running || (s.ch c).mstate = .reversing).length

/-- Whether the head of the start queue may be admitted now (R133). -/
def State.mayAdmit (s : State) : Bool :=
  decide (s.driving < s.globals.m) && s.spacingTimer.isNone && !s.holdLine.level

/-! ### Reversing (R95, R96) -/

/-- The entry to REVERSING toward the target in the record's goal: it ends at once where the target is
reached, and otherwise drives with no ramp and no soft zone (R89, R96). -/
def enterReversing (c : Chan) (s : State) : State :=
  let s := s.modCh c fun ch =>
    ({ ch.mapMotion (fun m => { m with braking := none, pausedFrom := none, runTime := 0 }) with
      brakeTimer := none }).setMState .reversing
  let ch := s.ch c
  match ch.motion with
  | none => s
  | some m =>
    let reached : Bool := match m.goal with
      | some (.target t) =>
        decide ((m.dir = .inc ∧ t ≤ ch.position) ∨ (m.dir = .dec ∧ ch.position ≤ t))
      | _ => true
    if reached then endReversal c none .completed s
    else
      s.modCh c fun ch =>
        ({ ch with runDuty := ch.chosenDuty false, runSince := some (s.clock / Config.usPerMs) }).setBridge
          s.clock m.dir.bridge (ch.chosenDuty false)

/-- The direction of a reversal from a position (R95). -/
def reversalDir (t : ChanTuning) (p : Int) : Dir :=
  if t.axis = .twoSided ∧ p < 0 ∧ 0 < t.lt then .dec else .inc

/-- The target of a reversal from a position, clamped to the axis on a REFERENCED channel (R95). -/
def reversalTarget (t : ChanTuning) (datum : Datum) (p : Int) : Int :=
  match reversalDir t p with
  | .inc => if datum = .referenced then min (p + t.dr) t.lo else p + t.dr
  | .dec => if datum = .referenced then max (p - t.dr) (-(t.ltUsed : Int)) else p - t.dr

/-- The pause of a channel whose brake has ended (R92). -/
def Channel.pauseAfterBrake (now : Nat) (from_ : PausedFrom) (c : Channel) : Channel :=
  (({ c.mapMotion (fun m => { m with braking := none, pausedFrom := some from_ }) with
    brakeTimer := none }).setMState .paused).setBridge now .off 0

/-- A brake with a REVERSAL follow-on expires: the reversal is formed from the position of the moment (R92, R95). -/
def formReversal (c : Chan) (s : State) : State :=
  let ch := s.ch c
  let d := reversalDir ch.tune ch.position
  let t := reversalTarget ch.tune ch.datum ch.position
  let beyond : Bool := decide ((d = .inc ∧ ch.position < t) ∨ (d = .dec ∧ t < ch.position))
  if ch.tune.dr = 0 then (reportOutcome c .none s).modCh c (·.enterIdle s.clock)
  else if beyond then
    let s := s.modCh c (·.mapMotion fun m => { m with dir := d, goal := some (.target t) })
    if s.holdLine.level then s.modCh c (·.pauseAfterBrake s.clock .reversal) else enterReversing c s
  else (reportOutcome c .completed s).modCh c (·.enterIdle s.clock)

/-! ### Records and grants (R80, R93, R102, R120 to R122) -/

/-- What a grant gives the channel: the sender, the mode, the goal and the direction derived for it, if any. -/
structure Grant where
  slot : Slot
  mode : Mode
  goal : Goal
  dir : Option Dir
  deriving DecidableEq, Repr

/-- A new motion record (R53, R63, R80). -/
def newMotion (slot : Slot) (mode : Mode) (goal : Option Goal) (d : Dir) (level : Nat) (normal : Bool) : Motion where
  mode := mode
  dir := d
  goal := goal
  owner := some slot
  braking := none
  pausedFrom := none
  runTime := 0
  incidentFree := true
  supplyNormal := normal
  holdFree := true
  maxRough := level
  incidentRef := none
  started := false

/-- The hold timer at a grant: started or restarted for HOLD, stopped for any other mode (R122). -/
def Channel.grantTimer (now : Nat) (mode : Mode) (c : Channel) : Channel :=
  { c with holdTimer := if mode = .hold then startTimer now c.tune.holdTimeout else none }

/-- What a replacement takes from the motion that is owned: a latch for another slot's HOLD motion, and the
SEEKING datum of a REFERENCE (R121, R124). -/
def Channel.supersede (now : Nat) (slot : Slot) (c : Channel) : Channel :=
  match c.owner with
  | none => c
  | some o =>
    let c := if o.slot = slot then c else c.latch now o
    if o.mode = .reference ∧ c.datum = .seeking then c.setDatum .unreferenced else c

/-- The grant repeats the owned motion: same slot, mode and goal (R120). DEDUCED, log entry 11. Goals are compared as
they are kept, so a HOLD TARGET kept as the target 0 and an owned HOLD CLOSE are different goals, though R84 holds a
target of 0 as CLOSE: R84 and R120 leave open whether one repeats the other. DEDUCED, log entry 15. -/
def Channel.sameGrant (g : Grant) (c : Channel) : Bool :=
  match c.owner with
  | some o => decide (o.slot = g.slot ∧ o.mode = g.mode ∧ o.goal = some g.goal)
  | none => false

/-- The motion is replaced in place: owner, mode and goal are the grant's, run-time 0; record and owner take the
grant's direction, and where its goal gives none each keeps its own (R84, R89, R102). -/
def Channel.replaceMotion (now : Nat) (g : Grant) (m : Motion) (c : Channel) : Channel :=
  let held := (c.owner.map (·.dir)).getD m.dir
  let c := (c.supersede now g.slot).setOwner ⟨g.slot, false, g.mode, some g.goal, g.dir.getD held⟩
  let c := { c with motion := some { m with
    owner := some g.slot, mode := g.mode, goal := some g.goal, dir := g.dir.getD m.dir } }
  (c.zeroRun now).grantTimer now g.mode

/-- A motion in flight or paused is replaced in place, and ends at once where its new goal is reached (R102).
DEDUCED, log entry 12. -/
def Channel.replaceInFlight (now : Nat) (g : Grant) (m : Motion) (c : Channel) : Channel :=
  let c := c.replaceMotion now g m
  match c.motionEnd with
  | some cause => c.endMotion now cause
  | none => c

/-- The grant becomes the MOTION follow-on of a brake, the sender's ownership pending (R102, R112). -/
def Channel.setFollowOn (now : Nat) (g : Grant) (d : Dir) (ended : Bool) (c : Channel) : Channel :=
  let c := (c.supersede now g.slot).setOwner ⟨g.slot, true, g.mode, some g.goal, d⟩
  (c.mapMotion fun m =>
    { m with runTime := 0, braking := some ⟨.motion g.slot g.mode g.goal d, ended⟩ }).grantTimer now g.mode

/-- A grant from IDLE creates the record and the channel enters QUEUED (R80, R120). -/
def Channel.createMotion (now level : Nat) (normal : Bool) (slot : Slot) (mode : Mode) (goal : Option Goal)
    (d : Dir) (c : Channel) : Channel :=
  let c := c.setOwner ⟨slot, false, mode, goal, d⟩
  let c := { c with motion := some (newMotion slot mode goal d level normal) }
  ((c.zeroAccum).setMState .queued).grantTimer now mode

/-- A grant acts on a channel that holds no reversal, by its motion state (R102, R120, R121). -/
def Channel.grant (now level : Nat) (normal : Bool) (g : Grant) (c : Channel) : Channel :=
  if c.sameGrant g then (if g.mode = .hold then c.grantTimer now .hold else c)
  else match c.mstate, c.motion with
    | .idle, _ =>
      match g.dir with
      | some d => c.createMotion now level normal g.slot g.mode (some g.goal) d
      | none => c
    | .queued, some m => c.replaceMotion now g m
    | .starting, some m | .running, some m | .paused, some m =>
      if g.dir = none ∨ g.dir = some m.dir then c.replaceInFlight now g m
      else (c.enterBraking now ⟨.none, false⟩).setFollowOn now g (g.dir.getD m.dir) false
    | .braking, some m =>
      match m.braking with
      | some ⟨.motion _ _ _ d, ended⟩ => c.setFollowOn now g (g.dir.getD d) ended
      | some ⟨.none, ended⟩ =>
        match g.dir with
        | some d => c.setFollowOn now g d ended
        | none => c
      | _ => c
    | _, _ => c

/-- A grant reaches the channel; a motion created from IDLE joins the tail of the start queue, and a datum
lost in flight is a moment at which the strip is judged (R44, R120, R132). -/
def grantTo (c : Chan) (g : Grant) (s : State) : State :=
  let before := s.ch c
  let s := s.modCh c (·.grant s.clock s.roughness (decide (s.band = .normal)) g)
  let s :=
    if before.mstate = .idle ∧ (s.ch c).mstate = .queued then { s with startQueue := s.startQueue ++ [c] } else s
  if before.datum ≠ (s.ch c).datum then judgeStrip c s else s

/-- The record a MOTION follow-on gives at the brake's expiry (R84, R93, R122). A brake of a pre-emption goes on
with its own record, the direction derived again and kept as the record holds it where the goal gives none
(R84). A brake that ended its motion passes through IDLE: the end is handed on and a new record is created,
which takes the follow-on's direction, derived at its grant; R84 states this for a goal that gives none, and
the model takes it for every goal (log entry 14, DEDUCED; order of the two ends, log entry 13, DEDUCED). -/
def Channel.followRecord (now level : Nat) (normal : Bool) (slot : Slot) (mode : Mode) (goal : Goal) (d : Dir)
    (m : Motion) (ended : Bool) (c : Channel) : Channel :=
  if ended then
    let c := { c.handEnd with motion := some (newMotion slot mode (some goal) d level normal), statusDue := true }
    c.zeroAccum.grantTimer now mode
  else
    { c with motion := some { m with
        owner := some slot, mode := mode, goal := some goal, braking := none
        dir := (goalDir c.tune.axis goal c.position).getD m.dir } }

/-- The pending owner of a channel stops being pending, and takes the direction derived at the expiry; where the
goal gives none it keeps its own (R84, R112). -/
def Channel.confirmOwner (d : Option Dir) (c : Channel) : Channel :=
  match c.owner with
  | some o => c.setOwner { o with pending := false, dir := d.getD o.dir }
  | none => c

/-- A brake with a MOTION follow-on expires: QUEUED at the front; with the hold line asserted PAUSED, or IDLE
with HOLD once the limit has expired (R92, R93; order of the two ends, log entry 13, DEDUCED). The direction is
derived again for a record that goes on, not for a new one (log entry 14, DEDUCED). -/
def followMotion (c : Chan) (slot : Slot) (mode : Mode) (goal : Goal) (d : Dir) (m : Motion) (ended : Bool)
    (s : State) : State :=
  let s := s.modCh c fun ch =>
    let derived := if ended then none else goalDir ch.tune.axis goal ch.position
    (ch.followRecord s.clock s.roughness (decide (s.band = .normal)) slot mode goal d m ended).confirmOwner derived
  if s.holdLine.level then
    if s.limitExpired then s.modCh c (·.dropMotion s.clock .hold)
    else s.modCh c (·.pauseAfterBrake s.clock .motion)
  else
    let s := s.modCh c fun ch => (({ ch with brakeTimer := none }).setMState .queued).setBridge s.clock .off 0
    { s with startQueue := c :: s.startQueue }

/-- The brake timer of a channel expires (R92). -/
def endBrake (c : Chan) (s : State) : State :=
  match (s.ch c).motion with
  | none => s
  | some m =>
    match m.braking with
    | some ⟨.reversal, _⟩ => formReversal c s
    | some ⟨.motion slot mode goal d, ended⟩ => followMotion c slot mode goal d m ended s
    | _ => s.modCh c (·.enterIdle s.clock)

/-! ### The hold line (R104 to R106, R144 to R147) -/

/-- An assertion reaches a channel: a driving one is paused with its bridge OFF, and every record's hold-free
flag is cleared (R63, R104). -/
def Channel.pauseForHold (now : Nat) (c : Channel) : Channel :=
  let c := c.mapMotion fun m => { m with holdFree := false }
  let pause (from_ : PausedFrom) : Channel :=
    let c := (c.freezeRun now).mapMotion fun m => { m with pausedFrom := some from_ }
    (({ c with ramp := none }).setMState .paused).setBridge now .off 0
  match c.mstate with
  | .starting => pause .starting
  | .running => pause .running
  | .reversing => pause .reversing
  | _ => c

/-- Whether a channel is PAUSED with a master motion (R105). -/
def Channel.pausedMaster (c : Channel) : Bool :=
  decide (c.mstate = .paused) &&
    match c.motion.bind (·.pausedFrom) with
    | some .starting | some .running | some .motion => true
    | _ => false

/-- Whether a channel is PAUSED with a reversal (R105). -/
def Channel.pausedReversal (c : Channel) : Bool :=
  decide (c.mstate = .paused) &&
    match c.motion.bind (·.pausedFrom) with
    | some .reversing | some .reversal => true
    | _ => false

/-- A paused master motion goes back to the start queue (R105). -/
def Channel.resume (c : Channel) : Channel :=
  (c.mapMotion fun m => { m with pausedFrom := none }).setMState .queued

/-- The assertion event (R144). -/
def assertHold (s : State) : State :=
  let s := { s with holdLimitTimer := startTimer s.clock s.globals.holdLimit, limitExpired := false }
  forChans (fun c s => s.modCh c (·.pauseForHold s.clock)) s

/-- The release event: reversals resume at once; master motions go to the front of the queue in ascending
order, or end with HOLD (R105, R147). -/
def releaseHold (s : State) : State :=
  let resumes := s.globals.autoResume && !s.limitExpired
  let back := Chan.all.filter fun c => resumes && (s.ch c).pausedMaster
  let s := { s with holdLimitTimer := none }
  let s := forChans (fun c s =>
    if (s.ch c).pausedReversal then enterReversing c s
    else if (s.ch c).pausedMaster then
      if resumes then s.modCh c (·.resume) else s.modCh c (·.dropMotion s.clock .hold)
    else s) s
  { s with startQueue := back ++ s.startQueue, limitExpired := false }

/-- The hold limit expires: every paused master motion and every queued one ends with HOLD (R106, R146). -/
def expireHoldLimit (s : State) : State :=
  let s := { s with holdLimitTimer := none, limitExpired := true }
  forChans (fun c s =>
    if (s.ch c).pausedMaster then s.modCh c (·.dropMotion s.clock .hold)
    else if (s.ch c).mstate = .queued then leaveQueue c .hold s
    else s) s

/-- HOLDIN is sampled at a level; when its filter accepts a change, the assertion or the release is taken (R143).
DESIGN CHOICE, log entry 6. -/
def sampleHold (level : Bool) (stable : Nat) (s : State) : State :=
  let x := s.holdLine.sampleRun (max s.clock (s.holdSampled + 1)) level Config.holdFilter stable
  let s := { s with clock := x.2.1, holdLine := x.1, holdSampled := x.2.1 }
  if x.2.2 then (if x.1.level then assertHold s else releaseHold s) else s

/-! ### The supply (R137 to R141) -/

/-- The band after a new V (R138). -/
def nextBand (b : Band) (v : Nat) : Band :=
  match b with
  | .normal => if v < 9000 then .low else if 16000 < v then .high else .normal
  | .low => if 16000 < v then .high else if 9300 ≤ v then .normal else .low
  | .high => if v < 9000 then .low else if v ≤ 15700 then .normal else .high

/-- A change to LOW stops this channel: its master motion is a close or a tilt, judged by the direction held
and the position of the moment; a goal that gives no direction is still (R139). -/
def Channel.stoppedByLow (c : Channel) : Bool :=
  match c.owner with
  | none => false
  | some o =>
    let reference := decide (o.mode = .reference)
    let held := if c.mstate = .braking then o.dir else (c.motion.map (·.dir)).getD o.dir
    let d := if (wishDir c.tune.axis o.goal c.position).isNone then none else some held
    match classify c.tune.axis reference d c.position with
    | .close | .tilt => true
    | _ => false

/-- A band change acts on the channels in ascending order (R139, R140, R141). -/
def bandStops (b : Band) (s : State) : State :=
  forChans (fun c s =>
    let stops := match b with
      | .normal => false
      | .low => (s.ch c).stoppedByLow
      | .high => (s.ch c).owner.isSome
    if stops then stopRequest c .supply s else s) s

/-- A new band is entered: leaving NORMAL clears every record's supply-normal flag, and the stops follow (R63,
R141). -/
def changeBand (b : Band) (s : State) : State :=
  if b = s.band then s
  else
    let left := decide (s.band = .normal)
    let s := { s with band := b }
    let s := forChans (fun c s =>
      s.modCh c (·.mapMotion fun m => { m with supplyNormal := m.supplyNormal && !left })) s
    bandStops b s

/-- A battery sample: the list of at most four, V as the floor of their mean, the band judged (R137, R138). -/
def takeSample (code : Nat) (s : State) : State :=
  let l := s.samples ++ [code * Config.mvPerCode]
  let l := if Config.maxSamples < l.length then l.drop 1 else l
  let v := l.sum / l.length
  changeBand (nextBand s.band v) { s with samples := l, volts := v }

/-! ### Roughness (R51 to R53) -/

/-- The roughness level is set, and reported to every motion that runs (R53). DEDUCED, log entry 18. -/
def setRoughness (n : Nat) (s : State) : State :=
  if n = s.roughness then s
  else
    forChans (fun c s => s.modCh c (·.mapMotion fun m =>
      if m.started then { m with maxRough := max m.maxRough n } else m)) { s with roughness := n }

/-! ### Part states (R183 to R186) -/

/-- The cross-parameter clamps of one channel, in order (R186). -/
def ChanTuning.clamped (t : ChanTuning) : ChanTuning :=
  let t := match t.axis with
    | .oneSided => { t with lt := 0, refEnd := .closed }
    | .twoSided => t
  { t with b := min t.b (max t.lo t.lt), softZone := min t.softZone t.s }

/-- Whether the clamps change any value (R185). -/
def State.clampsChange (s : State) : Bool := Chan.all.any fun c => (s.ch c).tune.clamped ≠ (s.ch c).tune

/-- Leaving CONFIG for RUN: the load abandoned, the clamps applied, the idle timer stopped (R185). -/
def leaveConfig (s : State) : State :=
  let s := forChans (fun c s => s.modCh c fun ch => { ch with tune := ch.tune.clamped }) { s with staging := none }
  { s with configTimer := none, partState := .run }

/-- A request needing the SERVICE right that passes the screen in CONFIG restarts the idle timer (R170, R183). -/
def touchConfig (k : RequestKind) (s : State) : State :=
  if k.right = some .service ∧ s.partState = .config then
    { s with configTimer := startTimer s.clock Config.configIdleMs }
  else s

/-! ### The dispatcher (R169 to R171) -/

/-- What the handling of a request sends at its end (R171). -/
inductive Sends where
  | nothing
  | answer (r : Reply) (trailer : List Nat)
  | frames (fs : List Frame)
  deriving DecidableEq, Repr

/-- The end of a request's handling: the STATUS frames it triggered, then what it sends (R171, R197). -/
def conclude (slot : Slot) (kind : Nat) (x : State × Sends) : State :=
  let s := flush x.1
  match x.2 with
  | .nothing => s
  | .answer r t => handFrame (answerFrame s.globals slot kind r t) s
  | .frames fs => fs.foldl (fun s f => handFrame f s) s

/-- The dispatcher handles one request of a known kind: the length and the right are screened (R170 checks 2 and
3), then the kind's own rules `h` act. -/
def screened (k : RequestKind) (h : Slot → List Byte → State → State × Sends) (r : Request) (s : State) :
    State × Sends :=
  if r.data.length < k.minLength r.data then (s, .answer .malformed [])
  else if !(s.slots.get r.slot).mayAsk k then (s, .answer .denied [])
  else h r.slot r.data (touchConfig k s)

/-- The dispatcher takes the oldest normal request, the urgent FIFO being empty, when it is of kind `k`; the
request leaves its FIFO and is handled whole (R169). Where the next request is another, this command does
not happen and nothing changes (log entry 5). DESIGN CHOICE. -/
def serve (k : RequestKind) (h : Slot → List Byte → State → State × Sends) (s : State) : State :=
  match s.urgent, s.normal with
  | [], r :: rest =>
    if kindOf r.data = some k then
      conclude r.slot (byteAt r.data 0) (screened k h r { s with normal := rest })
    else s
  | _, _ => s

end Sys2Proof.Machine
end

