-- ==== Sys2Proof/Machine/Bus.lean ====
section
/-! DEFINITION. The bus side of the port (chapter 8): the placement of a received frame, and the attempts to send
the head of the transmit queue. -/

namespace Sys2Proof.Machine

/-! ### Reception (R164, R166 to R168) -/

/-- The identifier of a frame the port delivers: an 11-bit data frame received without error, of at most 8 data
bytes (R164; log entry 3). -/
def delivered (f : BusFrame) : Option Ident :=
  match f.ident with
  | .standard id => if !f.remote && !f.error && decide (f.data.length ≤ 8) then some id else none
  | .extended _ => none

/-- The frame is a STOP (R167, R192). -/
def isStop (d : List Byte) : Bool := decide (kindOf d = some .stop)

/-- A STOP joins the urgent FIFO, or is merged into its newest entry (R167). -/
def joinUrgent (r : StopRequest) (q : List StopRequest) : List StopRequest :=
  if q.length < Config.urgentCap then q ++ [r]
  else match q.getLast? with
    | some n => q.dropLast ++ [{ n with mask := n.mask ||| r.mask }]
    | none => q

/-- The port places a tagged frame (R167, R168). -/
def place (slot : Slot) (d : List Byte) (s : State) : State :=
  if isStop d then
    if RequestKind.minLength d .stop ≤ d.length ∧ (s.slots.get slot).mayAsk .stop then
      { s with urgent := joinUrgent ⟨slot, byteOf (byteAt d 1)⟩ s.urgent }
    else s
  else if s.normal.length < Config.normalCap then { s with normal := s.normal ++ [⟨slot, d⟩] }
  else handFrame (answerFrame s.globals slot (byteAt d 0) .full [if d = [] then 1 else 0]) s

/-- FRAME_RECEIVED (R164, R166 to R168). -/
def execFrameReceived (f : BusFrame) (s : State) : Host.Outcome State Fault Refusal :=
  match delivered f with
  | none => .next s
  | some id =>
    match tagSlot s.slots id with
    | none => .next s
    | some slot => .next (place slot f.data s)

/-! ### Transmission (R174, R175) -/

/-- TX_OFFER: the head is offered to the bus when no frame is in transmission and the port is not quiet (R174). -/
def execTxOffer (s : State) : Host.Outcome State Fault Refusal :=
  match s.txQueue with
  | e :: q =>
    if s.inTransmission.isNone ∧ s.quietTimer.isNone then
      .next { s with txQueue := { e with onBus := some e.frame, renewed := false } :: q }
    else .next s
  | [] => .next s

/-- TX_SENT: the frame leaves the queue and the error count is 0 (R174). -/
def execTxSent (s : State) : Host.Outcome State Fault Refusal :=
  if s.inTransmission.isSome then .next { txLeave s with txErrors := 0 } else .next s

/-- TX_LOST_ARBITRATION: the frame stays in its place (R174). -/
def execTxLostArbitration (s : State) : Host.Outcome State Fault Refusal :=
  if s.inTransmission.isSome then
    .next { s with txQueue := s.txQueue.map fun e => { e with onBus := none, renewed := false } }
  else .next s

/-- The consecutive-error count rises by 1; the sixteenth error makes the port quiet for 100 ms (R175). -/
def raiseErrors (s : State) : State :=
  if s.txErrors + 1 < Config.quietErrors then { s with txErrors := s.txErrors + 1 }
  else { s with txErrors := 0, quietTimer := startTimer s.clock Config.quietMs }

/-- TX_ERROR: the frame leaves the queue unsent and the error count rises (R174, R175). -/
def execTxError (s : State) : Host.Outcome State Fault Refusal :=
  if s.inTransmission.isSome then .next (raiseErrors (txLeave s)) else .next s

end Sys2Proof.Machine
end

