-- ==== Sys2Proof/Machine/Inputs.lean ====
section
/-! DEFINITION. The commands that come from the lines of the part: reset, the Hall and strip lines, the battery
sense and the hold line. -/

namespace Sys2Proof.Machine

/-- RESET: every block at its reset values, the lines and straps read as the command carries them; the commands
that wait are not the part's (R180, R164). -/
def execReset (pins : Pins) (s : State) : Host.Outcome State Fault Refusal :=
  .next { State.atReset pins with pending := s.pending }

/-- HALL_TRANSITION (R1 to R17). -/
def execHallTransition (c : Chan) (a b : Bool) (stable : Nat) (s : State) : Host.Outcome State Fault Refusal :=
  .next (flush (sampleHall c a b stable s))

/-- STRIP_ASSERTED (R43 to R45). -/
def execStripAsserted (c : Chan) (level : Bool) (stable : Nat) (s : State) : Host.Outcome State Fault Refusal :=
  .next (flush (sampleStrip c level stable s))

/-- One sample of the battery-sense input at the ms at which it is due (R137 to R141). -/
def execBatterySample (code : BitVec 10) (s : State) : Host.Outcome State Fault Refusal :=
  let s := s.waitUntil s.nextSample
  .next (flush (takeSample code.toNat { s with nextSample := s.nextSample + 1 }))

/-- HOLD_ASSERTED (R143, R144). -/
def execHoldAsserted (stable : Nat) (s : State) : Host.Outcome State Fault Refusal :=
  .next (flush (sampleHold true stable s))

/-- HOLD_RELEASED (R143, R147). -/
def execHoldReleased (stable : Nat) (s : State) : Host.Outcome State Fault Refusal :=
  .next (flush (sampleHold false stable s))

end Sys2Proof.Machine
end

