-- ==== Sys2Proof/Machine/Ownership.lean ====
section
/-! DEFINITION. The requests of the ownership unit (chapter 5): MOVE, GROUP, STOP, REFERENCE, LOCKOUT and QUERY,
and the admission from the start queue. -/

namespace Sys2Proof.Machine

/-! ### The start queue (R133) -/

/-- ADMISSION: the head of the start queue is admitted where the conditions hold (R133, R85). -/
def execAdmission (s : State) : Host.Outcome State Fault Refusal :=
  match s.startQueue with
  | c :: rest => if s.mayAdmit then .next (flush (admitHead c { s with startQueue := rest })) else .next s
  | [] => .next s

/-! ### What a MOVE asks (R116) -/

/-- A target clamped to −Lt to Lo (R116). -/
def ChanTuning.clampTarget (t : ChanTuning) (x : Int) : Int := max (-(t.ltUsed : Int)) (min x t.lo)

/-- The end that lies in a direction from a position (R116). -/
def endToward (axis : Axis) (d : Dir) (p : Int) : GoalEnd :=
  match axis, d with
  | .oneSided, .inc => .toOpen
  | .oneSided, .dec => .toClose
  | .twoSided, .inc => if 0 ≤ p then .toOpen else .toClose
  | .twoSided, .dec => if 0 < p then .toClose else .toTilt

/-- The goal of a MOVE, from its mode, goal kind and carried target, at the channel's position (R116). A HOLD TARGET
that gives no direction keeps its clamped target. On a ONE-SIDED channel at p = 0 a HOLD TARGET clamped to 0
is held as CLOSE (R84), gives DEC and takes the end CLOSE, though it equals p: R84 and R116 differ there.
DEDUCED, log entry 15. -/
def Channel.goalOf (mode : Mode) (k : GoalKind) (x : Int) (c : Channel) : Goal :=
  match k with
  | .toEnd e => .toEnd e
  | .target =>
    let t := c.tune.clampTarget x
    if mode = .hold then
      match goalDir c.tune.axis (.target t) c.position with
      | some d => .toEnd (endToward c.tune.axis d c.position)
      | none => .target t
    else if t = 0 then .toEnd .toClose else .target t

/-- The clamp changed the target of an EXPRESS TARGET (R116). -/
def Channel.clamps (mode : Mode) (k : GoalKind) (x : Int) (c : Channel) : Bool :=
  decide (mode = .express ∧ k = .target ∧ c.tune.clampTarget x ≠ x)

/-- The grant a MOVE would be: its goal, and the direction derived from it (R84, R116). -/
def Channel.wish (slot : Slot) (mode : Mode) (k : GoalKind) (x : Int) (c : Channel) : Grant :=
  let g := c.goalOf mode k x
  ⟨slot, mode, g, goalDir c.tune.axis g c.position⟩

/-! ### The checks of R118 -/

/-- Checks 4 and 5. -/
def Channel.refusesKind (k : GoalKind) (c : Channel) : Option Reply :=
  if !c.tune.enable then some .disabled
  else if k = .toEnd .toTilt ∧ c.tune.axis = .oneSided then some .malformed
  else none

/-- Whether the channel holds a reversal, running, pending or paused (check 8). -/
def Channel.reverses (c : Channel) : Bool :=
  decide (c.mstate = .reversing) || c.pausedReversal ||
    (decide (c.mstate = .braking) && decide ((c.motion.bind (·.braking)).map (·.followOn) = some .reversal))

/-- Checks 7 to 11, for a grant asked of a channel. -/
def State.refuses (c : Chan) (g : Grant) (s : State) : Option Reply :=
  let ch := s.ch c
  let cls := classify ch.tune.axis false g.dir ch.position
  if !ch.allowed.get g.slot then some .locked
  else if ch.reverses then some .reversing
  else if g.mode ≠ .hold ∧ ch.datum ≠ .referenced then some .unref
  else if s.band = .high ∨ (s.band = .low ∧ (cls = .close ∨ cls = .tilt)) then some .supply
  else if g.mode = .express ∧ cls = .close ∧ ch.strikes = Config.maxStrikes then some .strikes
  else none

/-- The answer of a granted request (R120). A grant whose EXPRESS target the clamp changed and which, clamped, is still
is answered AT_TARGET, not CLAMPED: R116 and R120 give both answers there. DEDUCED, log entry 28. -/
def grantReply (g : Grant) (clamped : Bool) (c : Channel) : Reply :=
  if c.sameGrant g then .accepted else if g.dir = none then .atTarget else if clamped then .clamped else .accepted

/-- The request is a refresh of the owner's HOLD motion (R119). -/
def isRefresh (g : Grant) (o : Owner) : Bool :=
  decide (o.slot = g.slot ∧ g.mode = .hold ∧ o.mode = .hold ∧ g.dir = some o.dir)

/-- Arbitration, check 12: the state after it, and the answer; none for a refresh (R119, R120). -/
def arbitrate (c : Chan) (g : Grant) (clamped : Bool) (s : State) : State × Option Reply :=
  match (s.ch c).owner with
  | none => (grantTo c g s, some (grantReply g clamped (s.ch c)))
  | some o =>
    if isRefresh g o then (s.modCh c (·.grantTimer s.clock .hold), none)
    else if o.slot = g.slot ∨ (s.slots.get o.slot).rank < (s.slots.get g.slot).rank then
      (grantTo c g s, some (grantReply g clamped (s.ch c)))
    else (s, some .busy)

/-- Checks 7 to 12 of one channel. -/
def decideMove (c : Chan) (g : Grant) (clamped : Bool) (s : State) : State × Option Reply :=
  match s.refuses c g with
  | some r => (s, some r)
  | none => arbitrate c g clamped s

/-! ### Check 6: the hold latch (R125) -/

/-- The request matches the hold latch of its slot. -/
def Channel.matchesLatch (g : Grant) (c : Channel) : Bool :=
  match c.latches.get g.slot with
  | some l => decide (g.mode = .hold ∧ g.goal = .toEnd l.goal)
  | none => false

/-- The latch's timer restarts (R125). -/
def Channel.restartLatch (now : Nat) (slot : Slot) (c : Channel) : Channel :=
  let l := (c.latches.get slot).map fun l => { l with expires := now / Config.usPerMs + c.tune.holdTimeout }
  { c with latches := c.latches.set slot l }

/-- A request that does not match removes the latch (R125). -/
def Channel.dropLatch (slot : Slot) (c : Channel) : Channel := { c with latches := c.latches.set slot none }

/-! ### MOVE (R118) -/

/-- A MOVE of a known channel, mode and goal kind, in RUN: checks 4 to 12; no answer for a refresh or a match. -/
def moveChannel (c : Chan) (slot : Slot) (mode : Mode) (k : GoalKind) (x : Int) (s : State) : State × Option Reply :=
  match (s.ch c).refusesKind k with
  | some r => (s, some r)
  | none =>
    let g := (s.ch c).wish slot mode k x
    if (s.ch c).matchesLatch g then (s.modCh c (·.restartLatch s.clock slot), none)
    else decideMove c g ((s.ch c).clamps mode k x) (s.modCh c (·.dropLatch slot))

/-- The part's handling of a MOVE after the screen (R118). -/
def handleMove (slot : Slot) (d : List Byte) (s : State) : State × Sends :=
  if s.partState ≠ .run then (s, .answer .state [byteAt d 1])
  else match Chan.ofNat? (byteAt d 1), moveModeOf (byteAt d 2), GoalKind.ofCode (byteAt d 3) with
    | some c, some mode, some k =>
      match moveChannel c slot mode k (signedAt d 4) s with
      | (s, some r) => (s, .answer r [byteAt d 1])
      | (s, none) => (s, .nothing)
    | _, _, _ => (s, .answer .malformed [byteAt d 1])

/-- MOVE -/
def execMove (s : State) : Host.Outcome State Fault Refusal := .next (serve .move handleMove s)

/-! ### GROUP (R128, R129) -/

/-- The goal kind of a GROUP: an end. -/
def groupGoalOf (n : Nat) : Option GoalEnd :=
  match GoalKind.ofCode n with
  | some (.toEnd e) => some e
  | _ => none

/-- One channel of a GROUP as an EXPRESS MOVE to the end, checks 4, 5 and 7 to 12. -/
def groupChannel (c : Chan) (slot : Slot) (e : GoalEnd) (s : State) : State × Option Reply :=
  match (s.ch c).refusesKind (.toEnd e) with
  | some r => (s, some r)
  | none => decideMove c ((s.ch c).wish slot .express (.toEnd e) 0) false s

/-- Whether an outcome is that of a grant (R120, R129). -/
def Reply.grants : Reply → Bool
  | .accepted | .clamped | .atTarget => true
  | _ => false

/-- The outcomes of the masked channels, each in the state the one before it left, in ascending order. -/
def groupChannels (slot : Slot) (e : GoalEnd) (mask : Nat) : List Chan → State → State × List (Chan × Reply)
  | [], s => (s, [])
  | c :: cs, s =>
    if inMask mask c then
      let x := groupChannel c slot e s
      let y := groupChannels slot e mask cs x.1
      (y.1, (c, x.2.getD .accepted) :: y.2)
    else groupChannels slot e mask cs s

/-- The mask of the channels with an outcome of a kind. -/
def outcomeMask (p : Reply → Bool) (l : List (Chan × Reply)) : Nat :=
  maskOf fun c => l.any fun x => x.1 = c && p x.2

/-- The outcome of the lowest refused channel, or ACCEPTED (R129). -/
def groupOutcome (l : List (Chan × Reply)) : Reply :=
  ((l.find? fun x => !x.2.grants).map (·.2)).getD .accepted

/-- A GROUP refused whole reports every masked channel refused, an empty mask included (R129; log entry 9).
DESIGN CHOICE. -/
def groupRefused (r : Reply) (mask : Nat) : Sends := .answer r [0, maskOf (inMask mask)]

/-- The part's handling of a GROUP after the screen. -/
def handleGroup (slot : Slot) (d : List Byte) (s : State) : State × Sends :=
  let mask := byteAt d 1
  if s.partState ≠ .run then (s, groupRefused .state mask)
  else match groupGoalOf (byteAt d 2) with
    | none => (s, groupRefused .malformed mask)
    | some e =>
      let x := groupChannels slot e mask Chan.all s
      (x.1, .answer (groupOutcome x.2)
        [outcomeMask Reply.grants x.2, outcomeMask (fun r => !r.grants) x.2])

/-- GROUP -/
def execGroup (s : State) : Host.Outcome State Fault Refusal := .next (serve .group handleGroup s)

/-! ### STOP (R126) -/

/-- A STOP of a mask: a stop request to each channel, in ascending order. -/
def stopMask (mask : Nat) (s : State) : State :=
  forChans (fun c s => if inMask mask c then stopRequest c .stop s else s) s

/-- STOP: the oldest urgent entry is taken; nothing is answered (R126, R169). -/
def execStop (s : State) : Host.Outcome State Fault Refusal :=
  match s.urgent with
  | r :: rest => .next (flush (stopMask r.mask.toNat { s with urgent := rest }))
  | [] => .next s

/-! ### REFERENCE (R130) -/

/-- The part's handling of a REFERENCE after the screen. -/
def handleReference (slot : Slot) (d : List Byte) (s : State) : State × Sends :=
  let t := [byteAt d 1]
  if s.partState ≠ .run then (s, .answer .state t)
  else match Chan.ofNat? (byteAt d 1) with
    | none => (s, .answer .malformed t)
    | some c =>
      let ch := s.ch c
      if !ch.tune.enable then (s, .answer .disabled t)
      else if !ch.allowed.get slot then (s, .answer .locked t)
      else if ch.mstate ≠ .idle then (s, .answer .busy t)
      else if s.band ≠ .normal then (s, .answer .supply t)
      else
        let s := s.modCh c (·.createMotion s.clock s.roughness true slot .reference none .dec)
        ({ s with startQueue := s.startQueue ++ [c] }, .answer .accepted t)

/-- REFERENCE -/
def execReference (s : State) : Host.Outcome State Fault Refusal := .next (serve .reference handleReference s)

/-! ### LOCKOUT (R114, R115) -/

/-- One channel of a SET: the slots leave the allowed set, and the owner among those removed is stopped. -/
def lockChannel (slots : Nat) (c : Chan) (s : State) : State :=
  let stops := match (s.ch c).owner with
    | some o => inSlotMask slots o.slot && (s.ch c).allowed.get o.slot
    | none => false
  let s := s.modCh c fun ch =>
    { ch with allowed := Slot.all.foldl (fun a i => if inSlotMask slots i then a.set i false else a) ch.allowed }
  if stops then stopRequest c .lockout s else s

/-- One channel of a CLEAR: the slots join the allowed set. -/
def unlockChannel (slots : Nat) (c : Chan) (s : State) : State :=
  s.modCh c fun ch =>
    { ch with allowed := Slot.all.foldl (fun a i => if inSlotMask slots i then a.set i true else a) ch.allowed }

/-- The part's handling of a LOCKOUT after the screen. -/
def handleLockout (_ : Slot) (d : List Byte) (s : State) : State × Sends :=
  let act (f : Nat → Chan → State → State) : State :=
    forChans (fun c s => if inMask (byteAt d 1) c then f (byteAt d 2) c s else s) s
  let t := [byteAt d 1, byteAt d 2]
  match byteAt d 3 with
  | 0 => (act lockChannel, .answer .accepted t)
  | 1 => (act unlockChannel, .answer .accepted t)
  | _ => (s, .answer .malformed t)

/-- LOCKOUT -/
def execLockout (s : State) : Host.Outcome State Fault Refusal := .next (serve .lockout handleLockout s)

/-! ### QUERY (R131) -/

/-- The part's handling of a QUERY after the screen. -/
def handleQuery (_ : Slot) (d : List Byte) (s : State) : State × Sends :=
  match Chan.ofNat? (byteAt d 1) with
  | none => (s, .answer .malformed [byteAt d 1])
  | some c => (s.modCh c fun ch => { ch with statusDue := true }, .nothing)

/-- QUERY -/
def execQuery (s : State) : Host.Outcome State Fault Refusal := .next (serve .query handleQuery s)

end Sys2Proof.Machine
end

