-- ==== Sys2Proof/Machine/Profiles.lean ====
section
/-! DEFINITION. The requests of the profile store (chapter 3): the readout of a profile and its restore. -/

namespace Sys2Proof.Machine

/-! ### Readout (R67 to R70) -/

/-- The snapshot of a channel, its check byte captured with it (R67, R70). -/
def snapshotOf (c : Chan) (ch : Channel) : Snapshot where
  chan := c
  z := ch.tune.z
  lo := ch.tune.lo
  lt := ch.tune.ltUsed
  entries := ch.zones
  position := ch.position
  datum := ch.datum
  check := checkByte ch.tune.z ch.tune.lo ch.tune.ltUsed ch.zones ch.position (decide (ch.datum = .referenced))

/-- The part's handling of a PROFILE_READ after the screen (R67, R68).
The header goes before the answer: DEDUCED, log entry 10. -/
def handleProfileRead (_ : Slot) (d : List Byte) (s : State) : State × Sends :=
  let t := [byteAt d 1]
  match Chan.ofNat? (byteAt d 1), s.readout with
  | none, _ => (s, .answer .malformed t)
  | some _, some _ => (s, .answer .busy t)
  | some c, none => (handReadout { s with readout := some ⟨snapshotOf c (s.ch c), 0⟩ }, .answer .accepted t)

/-- PROFILE_READ -/
def execProfileRead (s : State) : Host.Outcome State Fault Refusal :=
  .next (serve .profileRead handleProfileRead s)

/-- READOUT_FRAME_HANDED: the engine hands its next frame when one is due and a place is free (R68). -/
def execReadoutFrameHanded (s : State) : Host.Outcome State Fault Refusal := .next (handReadout s)

/-! ### Restore (R71 to R78) -/

/-- A restore frame is taken in CONFIG only; what follows sees the load, if any, and whether the sender's slot
holds it (R71, R72, R73, R75). -/
def restoring (trailer : List Nat) (act : State × Sends) (s : State) : State × Sends :=
  if s.partState = .run then (s, .answer .state trailer) else act

/-- The part's handling of a RESTORE_BEGIN after the screen (R72). -/
def handleRestoreBegin (slot : Slot) (d : List Byte) (s : State) : State × Sends :=
  let t := [byteAt d 1]
  let z := byteAt d 2
  restoring t (match Chan.ofNat? (byteAt d 1) with
    | none => (s, .answer .malformed t)
    | some c =>
      if z ≠ 16 ∧ z ≠ 32 ∧ z ≠ 64 then (s, .answer .malformed t)
      else if s.staging.any (fun b => b.slot ≠ slot) then (s, .answer .busy t)
      else
        ({ s with staging := some ⟨slot, c, z, wordAt d 3, wordAt d 5, 0, [], s.ms + Config.stagingMs⟩ },
          .answer .accepted t)) s

/-- RESTORE_BEGIN -/
def execRestoreBegin (s : State) : Host.Outcome State Fault Refusal :=
  .next (serve .restoreBegin handleRestoreBegin s)

/-- The load takes its next segment: the two entries join it and the staging timer restarts (R73). -/
def Staging.store (now a b : Nat) (l : Staging) : Staging :=
  { l with
    expected := l.expected + 1
    entries := l.entries ++ [a, b]
    expires := now / Config.usPerMs + Config.stagingMs }

/-- The part's handling of a RESTORE_DATA after the screen (R73). -/
def handleRestoreData (slot : Slot) (d : List Byte) (s : State) : State × Sends :=
  let t := [byteAt d 1, byteAt d 2]
  restoring t (match s.staging with
    | none => (s, .answer .sequence t)
    | some b =>
      if b.slot ≠ slot then (s, .answer .busy t)
      else if byteAt d 1 = b.chan.toNat ∧ byteAt d 2 = b.expected ∧ b.expected < b.z / 2 then
        ({ s with staging := some (b.store s.clock (wordAt d 3) (wordAt d 5)) }, .answer .accepted t)
      else ({ s with staging := none }, .answer .sequence t)) s

/-- RESTORE_DATA -/
def execRestoreData (s : State) : Host.Outcome State Fault Refusal :=
  .next (serve .restoreData handleRestoreData s)

/-- The load's geometry is the channel's, its Lt read as 0 on a ONE-SIDED channel (R75 check 2). -/
def Staging.fits (l : Staging) (t : ChanTuning) : Bool := decide (l.z = t.z ∧ l.lo = t.lo ∧ l.lt = t.ltUsed)

/-- The travel counter takes an offered position: no edge counted since reset, and inside the axis (R23). -/
def Channel.takesPosition (p : Int) (c : Channel) : Bool :=
  !c.edged && decide (-(c.tune.ltUsed : Int) ≤ p ∧ p ≤ c.tune.lo)

/-- A successful END installs the staged table, then offers the position where its flag is set (R77, R23). -/
def installLoad (l : Staging) (p : Int) (flag : Bool) (s : State) : State × Reply :=
  let s := s.modCh l.chan fun ch => { ch with zones := l.entries }
  if flag && (s.ch l.chan).takesPosition p then
    (s.modCh l.chan fun ch => ({ ch with position := p }).setDatum .referenced, .accepted)
  else (s, .posIgnored)

/-- The part's handling of a RESTORE_END after the screen; every END of the claiming slot frees the buffer (R75). -/
def handleRestoreEnd (slot : Slot) (d : List Byte) (s : State) : State × Sends :=
  restoring [] (match s.staging with
    | none => (s, .answer .sequence [])
    | some b =>
      let flag := (byteAt d 3).testBit 0
      let free := { s with staging := none }
      if b.slot ≠ slot then (s, .answer .busy [])
      else if b.expected ≠ b.z / 2 then (free, .answer .sequence [])
      else if !b.fits (s.ch b.chan).tune then (free, .answer .mismatch [])
      else if byteAt d 4 ≠ checkByte b.z b.lo b.lt b.entries (signedAt d 1) flag then (free, .answer .check [])
      else
        let x := installLoad b (signedAt d 1) flag free
        (x.1, .answer x.2 [])) s

/-- RESTORE_END -/
def execRestoreEnd (s : State) : Host.Outcome State Fault Refusal := .next (serve .restoreEnd handleRestoreEnd s)

end Sys2Proof.Machine
end

