-- ==== Sys2Proof/Machine/Service.lean ====
section
/-! DEFINITION. The requests of the roughness holder, the incident list, the tuning table and the part state
(chapters 2, 7 and 9), and the request of no known kind. -/

namespace Sys2Proof.Machine

/-! ### VEHICLE (R51, R53) -/

/-- The part's handling of a VEHICLE after the screen. -/
def handleVehicle (_ : Slot) (d : List Byte) (s : State) : State × Sends :=
  let n := byteAt d 1
  let level := min n 3
  let s := setRoughness level { s with vehicleTimer := startTimer s.clock s.globals.vehicleHold }
  (s, .answer (if n ≤ 3 then .accepted else .clamped) [level])

/-- VEHICLE -/
def execVehicle (s : State) : Host.Outcome State Fault Refusal := .next (serve .vehicle handleVehicle s)

/-! ### INCIDENT_READ (R156) -/

/-- The part's handling of an INCIDENT_READ after the screen. -/
def handleIncidentRead (slot : Slot) (d : List Byte) (s : State) : State × Sends :=
  let i := byteAt d 1
  let held := s.incidents.length
  match s.incidents[i]? with
  | some r => (s, .frames [incidentDataA s.globals slot i r, incidentDataB s.globals slot i held r])
  | none => (s, .answer .malformed [i, held])

/-- INCIDENT_READ -/
def execIncidentRead (s : State) : Host.Outcome State Fault Refusal :=
  .next (serve .incidentRead handleIncidentRead s)

/-! ### CLEAR (R189) -/

/-- The part's handling of a CLEAR after the screen: FAULTS, then STRIKES, then INCIDENTS. -/
def handleClear (_ : Slot) (d : List Byte) (s : State) : State × Sends :=
  let sel := byteAt d 1
  let masked (f : Channel → Channel) (s : State) : State :=
    forChans (fun c s => if inMask (byteAt d 2) c then s.modCh c f else s) s
  let s := if sel.testBit 0 then masked (·.clearFaults) s else s
  let s := if sel.testBit 1 then masked (·.clearStrikes) s else s
  let s := if sel.testBit 2 then { s with incidents := [] } else s
  (s, .answer .accepted [])

/-- CLEAR -/
def execClear (s : State) : Host.Outcome State Fault Refusal := .next (serve .clear handleClear s)

/-! ### CONFIG and START (R184, R185) -/

/-- Every channel is IDLE (R184). -/
def State.allIdle (s : State) : Bool := Chan.all.all fun c => (s.ch c).mstate = .idle

/-- The part's handling of a CONFIG after the screen; taken in CONFIG the screen has restarted the timer. -/
def handleConfig (_ : Slot) (_ : List Byte) (s : State) : State × Sends :=
  if s.partState = .config then (s, .answer .accepted [])
  else if s.allIdle then
    ({ s with partState := .config, configTimer := startTimer s.clock Config.configIdleMs }, .answer .accepted [])
  else (s, .answer .busy [])

/-- CONFIG -/
def execConfig (s : State) : Host.Outcome State Fault Refusal := .next (serve .config handleConfig s)

/-- The part's handling of a START after the screen. -/
def handleStart (_ : Slot) (_ : List Byte) (s : State) : State × Sends :=
  if s.partState = .run then (s, .answer .state [])
  else (leaveConfig s, .answer (if s.clampsChange then .clamped else .accepted) [])

/-- START -/
def execStart (s : State) : Host.Outcome State Fault Refusal := .next (serve .start handleStart s)

/-! ### TUNE (R187, R188) -/

/-- What a TUNE names: a parameter of a channel, of the part or of a slot, with its range. -/
inductive TuneTarget where
  | chan (c : Chan) (r : ParamRange)
  | global (r : ParamRange)
  | slot (i : Slot) (r : ParamRange)
  deriving DecidableEq, Repr

/-- The code of the global marker (R192). -/
def globalMarker : Nat := 255

/-- The target of a TUNE, where the parameter is in the table and the target suits its kind (R187). -/
def tuneTarget (n target : Nat) : Option TuneTarget :=
  match chanRange n, globalRange n, slotRange n with
  | some r, _, _ => (Chan.ofNat? target).map fun c => .chan c r
  | none, some r, _ => if target = globalMarker then some (.global r) else none
  | none, none, some r => (Slot.ofNat? target).map fun i => .slot i r
  | none, none, none => none

/-- The zone table cleared to the channel's Z entries of 0, with its accumulators (R57). -/
def Channel.clearZones (c : Channel) : Channel :=
  { c.zeroAccum with zones := List.replicate c.tune.z 0 }

/-- What a change of a per-channel parameter does beside the new value (R24, R57, R188). -/
def Channel.tuned (n : Nat) (c : Channel) : Channel :=
  if n = 2 ∨ n = 8 ∨ n = 9 ∨ n = 11 then c.clearZones.setDatum .unreferenced
  else if n = 5 ∨ n = 6 then c.setDatum .unreferenced
  else if n = 10 ∧ outOfTravel c.tune c.position then c.setDatum .unreferenced
  else c

/-- Storing a value, in range, into a channel's tuning; the value already held is no change (R187). -/
def Channel.tuneTo (n v : Nat) (c : Channel) : Channel :=
  if c.tune.read n = v then c else ({ c with tune := c.tune.write v n }).tuned n

/-- The part's handling of a TUNE after the screen. The answer carries the value held after it (R187). -/
def handleTune (_ : Slot) (d : List Byte) (s : State) : State × Sends :=
  let n := byteAt d 1
  let target := byteAt d 2
  let v := wordAt d 3
  let taken (r : ParamRange) : Sends :=
    let w := r.bringIn v
    .answer (if w = v then .accepted else .clamped) [n, target, w / 256, w % 256]
  if s.partState = .run then (s, .answer .state [n, target])
  else match tuneTarget n target with
    | none => (s, .answer .malformed [n, target])
    | some (.chan c r) => (s.modCh c (·.tuneTo n (r.bringIn v)), taken r)
    | some (.global r) => ({ s with globals := s.globals.write (r.bringIn v) n }, taken r)
    | some (.slot i r) =>
      ({ s with slots := s.slots.set i ((s.slots.get i).write (r.bringIn v) n) }, taken r)

/-- TUNE -/
def execTune (s : State) : Host.Outcome State Fault Refusal := .next (serve .tune handleTune s)

/-! ### A request of no known kind (R170 check 1) -/

/-- UNKNOWN_REQUEST: the dispatcher refuses a request with no byte 0 or of a kind it does not know. -/
def execUnknownRequest (s : State) : Host.Outcome State Fault Refusal :=
  match s.urgent, s.normal with
  | [], r :: rest =>
    if kindOf r.data = none then
      .next (conclude r.slot (byteAt r.data 0)
        ({ s with normal := rest }, .answer .malformed [if r.data = [] then 1 else 0]))
    else .next s
  | _, _ => .next s

end Sys2Proof.Machine
end

