-- ==== Sys2Proof/Machine/Timers.lean ====
section
/-! DEFINITION. The expiries of the part's timers. Each waits for its deadline if that lies ahead (log entry 2) and
acts; where the timer is stopped the event does not happen and nothing changes. -/

namespace Sys2Proof.Machine

/-- STALL_TIMER_EXPIRY (R40, R41). -/
def execStallTimerExpiry (c : Chan) (s : State) : Host.Outcome State Fault Refusal :=
  match (s.ch c).stallTimer with
  | some d => .next (flush (stall c (s.waitUntil d)))
  | none => .next s

/-- RAMP_END: the ramp timer of a STARTING channel reaches the ramp time (R86, R87). -/
def execRampEnd (c : Chan) (s : State) : Host.Outcome State Fault Refusal :=
  match (s.ch c).mstate, (s.ch c).ramp with
  | .starting, some r =>
    .next (flush ((s.waitUntil (r.start + (s.ch c).tune.ramp)).modCh c fun ch => ch.enterRunning.refreshDuty))
  | _, _ => .next s

/-- The duty of the ramp after `elapsed` ms (R86). -/
def Channel.rampDuty (elapsed : Nat) (c : Channel) : Nat :=
  ((c.tune.startDuty : Int) + (((c.runDuty : Int) - c.tune.startDuty) * elapsed) / (c.tune.ramp : Int)).toNat

/-- RAMP_DUTY_RECOMPUTE: the duty at the next ms of the ramp (R86). -/
def execRampDutyRecompute (c : Chan) (s : State) : Host.Outcome State Fault Refusal :=
  match (s.ch c).mstate, (s.ch c).ramp with
  | .starting, some r =>
    let s := s.waitUntil (r.last + 1)
    let elapsed := min (s.ch c).tune.ramp (s.ms - r.start)
    .next (s.modCh c fun ch => { ch with ramp := some { r with last := s.ms }, duty := ch.rampDuty elapsed })
  | _, _ => .next s

/-- BRAKE_EXPIRY (R92, R93, R95). -/
def execBrakeExpiry (c : Chan) (s : State) : Host.Outcome State Fault Refusal :=
  match (s.ch c).brakeTimer with
  | some d => .next (flush (endBrake c (s.waitUntil d)))
  | none => .next s

/-- The run-time limit reached: a motion ends with RUNTIME, a reversal also with the outcome CUT (R89, R97). -/
def runLimitReached (c : Chan) (s : State) : State :=
  match (s.ch c).mstate with
  | .starting | .running => s.modCh c (·.endMotion s.clock .runtime)
  | .reversing => endReversal c (some .runtime) .cut s
  | _ => s

/-- RUN_TIME_LIMIT_EXPIRY (R89). -/
def execRunTimeLimitExpiry (c : Chan) (s : State) : Host.Outcome State Fault Refusal :=
  match (s.ch c).runSince with
  | some t =>
    let spent := ((s.ch c).motion.map (·.runTime)).getD 0
    .next (flush (runLimitReached c (s.waitUntil (t + ((s.ch c).tune.runLimit - spent)))))
  | none => .next s

/-- HOLD_TIMER_EXPIRY (R123). -/
def execHoldTimerExpiry (c : Chan) (s : State) : Host.Outcome State Fault Refusal :=
  match (s.ch c).holdTimer with
  | some d =>
    .next (flush (stopRequest c .timeout ((s.waitUntil d).modCh c fun ch => { ch with holdTimer := none })))
  | none => .next s

/-- LATCH_TIMER_EXPIRY (R125). -/
def execLatchTimerExpiry (c : Chan) (slot : Slot) (s : State) : Host.Outcome State Fault Refusal :=
  match (s.ch c).latches.get slot with
  | some l => .next ((s.waitUntil l.expires).modCh c fun ch => { ch with latches := ch.latches.set slot none })
  | none => .next s

/-- START_SPACING_EXPIRY (R134). -/
def execStartSpacingExpiry (s : State) : Host.Outcome State Fault Refusal :=
  match s.spacingTimer with
  | some d => .next { s.waitUntil d with spacingTimer := none }
  | none => .next s

/-- STRIKE_WINDOW_EXPIRY (R160, R161). -/
def execStrikeWindowExpiry (c : Chan) (s : State) : Host.Outcome State Fault Refusal :=
  match (s.ch c).strikeTimer with
  | some d => .next (flush ((s.waitUntil d).modCh c (·.clearStrikes)))
  | none => .next s

/-- STAGING_TIMER_EXPIRY (R74). -/
def execStagingTimerExpiry (s : State) : Host.Outcome State Fault Refusal :=
  match s.staging with
  | some b => .next { s.waitUntil b.expires with staging := none }
  | none => .next s

/-- VEHICLE_DATA_HOLD_EXPIRY (R52, R53). -/
def execVehicleDataHoldExpiry (s : State) : Host.Outcome State Fault Refusal :=
  match s.vehicleTimer with
  | some d => .next (setRoughness 0 { s.waitUntil d with vehicleTimer := none })
  | none => .next s

/-- CONFIG_IDLE_EXPIRY: the part leaves CONFIG and sends nothing (R183, R185). -/
def execConfigIdleExpiry (s : State) : Host.Outcome State Fault Refusal :=
  match s.partState, s.configTimer with
  | .config, some d => .next (leaveConfig (s.waitUntil d))
  | _, _ => .next s

/-- STATUS_PERIOD_EXPIRY: six STATUS frames, and the timer restarts with the period as it is tuned (R177). -/
def execStatusPeriodExpiry (s : State) : Host.Outcome State Fault Refusal :=
  let s := s.waitUntil s.statusTimer
  let s := { s with statusTimer := s.ms + s.globals.statusPeriod }
  .next (flush (forChans (fun c s => s.modCh c fun ch => { ch with statusDue := true }) s))

/-- HOLD_LIMIT_EXPIRY (R106, R146). -/
def execHoldLimitExpiry (s : State) : Host.Outcome State Fault Refusal :=
  match s.holdLimitTimer with
  | some d => .next (flush (expireHoldLimit (s.waitUntil d)))
  | none => .next s

/-- BUS_QUIET_EXPIRY (R175). -/
def execBusQuietExpiry (s : State) : Host.Outcome State Fault Refusal :=
  match s.quietTimer with
  | some d => .next { s.waitUntil d with quietTimer := none }
  | none => .next s

end Sys2Proof.Machine
end

