-- ==== Sys2Proof/Machine/Dispatch.lean ====
section
/-! DEFINITION. The meaning of each command, one arm per row of the opcode table. -/

namespace Sys2Proof.Machine

def exec (i : Instr) (s : State) : Host.Outcome State Fault Refusal :=
  match i with
  | .reset pins => Sys2Proof.Machine.execReset pins s
  | .hallTransition c a b stable => Sys2Proof.Machine.execHallTransition c a b stable s
  | .stripAsserted c level stable => Sys2Proof.Machine.execStripAsserted c level stable s
  | .stallTimerExpiry c => Sys2Proof.Machine.execStallTimerExpiry c s
  | .rampEnd c => Sys2Proof.Machine.execRampEnd c s
  | .brakeExpiry c => Sys2Proof.Machine.execBrakeExpiry c s
  | .runTimeLimitExpiry c => Sys2Proof.Machine.execRunTimeLimitExpiry c s
  | .holdTimerExpiry c => Sys2Proof.Machine.execHoldTimerExpiry c s
  | .latchTimerExpiry c slot => Sys2Proof.Machine.execLatchTimerExpiry c slot s
  | .admission => Sys2Proof.Machine.execAdmission s
  | .startSpacingExpiry => Sys2Proof.Machine.execStartSpacingExpiry s
  | .strikeWindowExpiry c => Sys2Proof.Machine.execStrikeWindowExpiry c s
  | .stagingTimerExpiry => Sys2Proof.Machine.execStagingTimerExpiry s
  | .vehicleDataHoldExpiry => Sys2Proof.Machine.execVehicleDataHoldExpiry s
  | .configIdleExpiry => Sys2Proof.Machine.execConfigIdleExpiry s
  | .statusPeriodExpiry => Sys2Proof.Machine.execStatusPeriodExpiry s
  | .batterySample code => Sys2Proof.Machine.execBatterySample code s
  | .holdAsserted stable => Sys2Proof.Machine.execHoldAsserted stable s
  | .holdReleased stable => Sys2Proof.Machine.execHoldReleased stable s
  | .holdLimitExpiry => Sys2Proof.Machine.execHoldLimitExpiry s
  | .frameReceived f => Sys2Proof.Machine.execFrameReceived f s
  | .move => Sys2Proof.Machine.execMove s
  | .group => Sys2Proof.Machine.execGroup s
  | .stop => Sys2Proof.Machine.execStop s
  | .reference => Sys2Proof.Machine.execReference s
  | .lockout => Sys2Proof.Machine.execLockout s
  | .query => Sys2Proof.Machine.execQuery s
  | .vehicle => Sys2Proof.Machine.execVehicle s
  | .profileRead => Sys2Proof.Machine.execProfileRead s
  | .readoutFrameHanded => Sys2Proof.Machine.execReadoutFrameHanded s
  | .restoreBegin => Sys2Proof.Machine.execRestoreBegin s
  | .restoreData => Sys2Proof.Machine.execRestoreData s
  | .restoreEnd => Sys2Proof.Machine.execRestoreEnd s
  | .incidentRead => Sys2Proof.Machine.execIncidentRead s
  | .clear => Sys2Proof.Machine.execClear s
  | .config => Sys2Proof.Machine.execConfig s
  | .start => Sys2Proof.Machine.execStart s
  | .tune => Sys2Proof.Machine.execTune s
  | .unknownRequest => Sys2Proof.Machine.execUnknownRequest s
  | .txOffer => Sys2Proof.Machine.execTxOffer s
  | .txSent => Sys2Proof.Machine.execTxSent s
  | .txLostArbitration => Sys2Proof.Machine.execTxLostArbitration s
  | .txError => Sys2Proof.Machine.execTxError s
  | .busQuietExpiry => Sys2Proof.Machine.execBusQuietExpiry s
  | .rampDutyRecompute c => Sys2Proof.Machine.execRampDutyRecompute c s

end Sys2Proof.Machine
end

