-- ==== Sys2Proof/Safety.lean ====
section
/-! DEFINITION. The terms in which claims are stated: what holds between steps, when the dispatcher takes a
request, when an answer is seen, and the whole-machine conditions that every step keeps. -/

namespace Sys2Proof.Machine

/-! ### Between steps -/

/-- No channel has a STATUS to hand: each step hands what it triggered at its end (R177, R197). -/
def State.noneDue (s : State) : Prop := ∀ c ∈ Chan.all, (s.ch c).statusDue = false

/-- Every channel but one is as it was. -/
def othersKept (c : Chan) (s t : State) : Prop := ∀ d, d ≠ c → t.ch d = s.ch d

/-- Every channel is as it was. -/
def channelsKept (s t : State) : Prop := ∀ c, t.ch c = s.ch c

/-! ### Requests and answers -/

/-- The dispatcher takes a request of kind `k` from a slot, with these bytes, which passes the screen; `rest` is
what waits behind it (R169, R170). -/
def State.takes (s : State) (k : RequestKind) (slot : Slot) (d : List Byte) (rest : List Request) : Prop :=
  s.urgent = [] ∧ s.normal = ⟨slot, d⟩ :: rest ∧ kindOf d = some k ∧ k.minLength d ≤ d.length ∧
    (s.slots.get slot).mayAsk k = true

/-- The state with the request taken out of its FIFO, its screen passed: in CONFIG a SERVICE request restarts the
config idle timer (R169, R183). -/
def State.taken (s : State) (k : RequestKind) (rest : List Request) : State :=
  touchConfig k { s with normal := rest }

/-- An ANSWER with this outcome and trailer stands in the queue, where the queue had room for the frames of one
request (R171, R193). -/
def answered (s t : State) (slot : Slot) (kind : Nat) (r : Reply) (trailer : List Nat) : Prop :=
  s.txQueue.length + 8 ≤ Config.txCap →
    ∃ e ∈ t.txQueue, e.frame = answerFrame t.globals slot kind r trailer

/-- A STATUS frame of the channel, formed from the state after, stands in the queue, where it had room for the
frames of one event (R173, R176, R177). -/
def statusHanded (c : Chan) (s t : State) : Prop :=
  s.txQueue.length + 8 ≤ Config.txCap → ∃ e ∈ t.txQueue, e.frame = statusFrame t c

/-! ### The tuning table (section 9.5, R187) -/

/-- A value lies in a range of section 9.3. -/
def ParamRange.has (v : Nat) : ParamRange → Bool
  | .span low high => decide (low ≤ v ∧ v ≤ high)
  | .members ms => ms.contains v

/-- A line of section 9.5: number, range, default, and what of the table the parameter is. -/
structure ParamRow (α : Type) where
  number : Nat
  range : ParamRange
  default : Nat
  held : α → Nat

/-- The per-channel parameters of section 9.5. -/
def chanRows : List (ParamRow ChanTuning) :=
  [⟨1, .span 0 1, 1, (·.enable.toNat)⟩,
   ⟨2, .span 0 1, 0, fun t => match t.axis with | .oneSided => 0 | .twoSided => 1⟩,
   ⟨3, .span 0 1, 0, fun t => match t.closedEnd with | .stall => 0 | .position => 1⟩,
   ⟨4, .span 0 1, 0, fun t => match t.refEnd with | .closed => 0 | .negative => 1⟩,
   ⟨5, .span 0 2, 1, fun t => match t.countMode with | .x1 => 0 | .x2 => 1 | .x4 => 2⟩,
   ⟨6, .span 0 1, 0, (·.polarity.toNat)⟩, ⟨7, .span 0 15, 4, (·.filter)⟩, ⟨8, .span 100 16000, 6000, (·.lo)⟩,
   ⟨9, .span 0 4000, 0, (·.lt)⟩, ⟨10, .span 0 255, 20, (·.overtravel)⟩, ⟨11, .members [16, 32, 64], 32, (·.z)⟩,
   ⟨12, .span 0 16000, 2000, (·.b)⟩, ⟨13, .span 0 255, 60, (·.s)⟩, ⟨14, .span 0 255, 40, (·.softZone)⟩,
   ⟨15, .span 0 16000, 1500, (·.dr)⟩, ⟨16, .members [1, 2, 4, 8], 4, (·.n)⟩, ⟨17, .span 0 63, 4, (·.ms)⟩,
   ⟨18, .span 1 8, 2, (·.q)⟩, ⟨19, .span 1 4095, 512, (·.kf)⟩, ⟨20, .span 1 1023, 80, (·.tb)⟩,
   ⟨21, .span 1 65535, 1000, (·.pdef)⟩, ⟨22, .span 0 255, 40, (·.mu)⟩, ⟨23, .span 0 255, 100, (·.mo)⟩,
   ⟨24, .span 0 1000, 120, (·.ladapt)⟩, ⟨25, .span 10 5000, 150, (·.pmin)⟩,
   ⟨26, .span 100 1000, 1000, (·.runDuty)⟩, ⟨27, .span 0 1000, 400, (·.startDuty)⟩,
   ⟨28, .span 0 1000, 500, (·.stopDuty)⟩, ⟨29, .span 100 1000, 600, (·.limpDuty)⟩,
   ⟨30, .span 0 500, 80, (·.ramp)⟩, ⟨31, .span 5 200, 40, (·.brake)⟩, ⟨32, .span 10 500, 60, (·.ts)⟩,
   ⟨33, .span 50 1000, 300, (·.tss)⟩, ⟨34, .span 1000 20000, 8000, (·.runLimit)⟩,
   ⟨35, .span 100 1000, 300, (·.holdTimeout)⟩, ⟨36, .span 0 1, 0, (·.stripEnable.toNat)⟩]

/-- The global parameters of section 9.5. -/
def globalRows : List (ParamRow GlobalTuning) :=
  [⟨64, .span 1 6, 3, (·.m)⟩, ⟨65, .span 0 500, 150, (·.spacing)⟩, ⟨66, .span 0 255, 15, (·.arough1)⟩,
   ⟨67, .span 0 255, 35, (·.arough2)⟩, ⟨68, .span 0 255, 60, (·.arough3)⟩,
   ⟨69, .span 100 5000, 1000, (·.vehicleHold)⟩, ⟨70, .span 500 5000, 2000, (·.holdLimit)⟩,
   ⟨71, .span 0 1, 1, (·.autoResume.toNat)⟩, ⟨72, .span 5 120, 30, (·.strikeWindow)⟩,
   ⟨73, .span 1 255, 8, (·.th)⟩,
   ⟨74, .span 0 1, 0, fun t => match t.counterMode with | .hold => 0 | .wrap => 1⟩,
   ⟨75, .span 20 1000, 100, (·.statusPeriod)⟩, ⟨76, .span 0x000 0x7FC, 0x5C0, (·.answerBase)⟩,
   ⟨77, .span 0x000 0x7F9, 0x5C8, (·.statusBase)⟩, ⟨78, .span 0x000 0x7FF, 0x5CE, (·.incidentId)⟩,
   ⟨79, .span 0x000 0x7FF, 0x5CF, (·.readoutId)⟩]

/-- The slot parameters of section 9.5, with the defaults of slot 0. -/
def slotRows : List (ParamRow SlotEntry) :=
  [⟨96, .span 0 1, 1, (·.enabled.toNat)⟩, ⟨97, .span 0x000 0x7FF, 0x5B0, (·.ident.toNat)⟩,
   ⟨98, .span 0x000 0x7FF, 0x7FF, (·.mask.toNat)⟩, ⟨99, .span 0 7, 7, (·.rank)⟩,
   ⟨100, .span 0 31, 31, (·.rights.toNat)⟩]

/-- The lines of a table are those of the model: the numbers, their ranges, the field that each one holds, the default
`init`, and a store that holds the value in its own field and leaves every other one. -/
def tabled {α : Type} (rows : List (ParamRow α)) (range : Nat → Option ParamRange) (read : α → Nat → Nat)
    (write : α → Nat → Nat → α) (init : α) : Prop :=
  (∀ n, (range n).isSome = true ↔ n ∈ rows.map (·.number)) ∧
  ∀ r ∈ rows, range r.number = some r.range ∧ read init r.number = r.default ∧
    ∀ t, read t r.number = r.held t ∧
      ∀ v, r.range.has v = true → read (write t v r.number) r.number = v ∧
        ∀ k, k ≠ r.number → read (write t v r.number) k = read t k

/-! ### A MOVE that reaches check 12 (R118 to R120) -/

/-- The dispatcher takes a MOVE of these bytes from a slot, for this channel, mode and goal kind, and it passes checks 1
to 11 with the slot holding no latch on the channel; `g` is the grant it would be. -/
def State.moves (s : State) (slot : Slot) (b : List Byte) (rest : List Request) (c : Chan) (mode : Mode)
    (k : GoalKind) (g : Grant) : Prop :=
  s.noneDue ∧ s.takes .move slot b rest ∧ s.partState = .run ∧ Chan.ofNat? (byteAt b 1) = some c ∧
  moveModeOf (byteAt b 2) = some mode ∧ GoalKind.ofCode (byteAt b 3) = some k ∧
  (s.ch c).refusesKind k = none ∧ (s.ch c).latches.get slot = none ∧
  g = (s.ch c).wish slot mode k (signedAt b 4) ∧ s.refuses c g = none

/-- Check 12 lets the grant replace the motion of this owner by another one: a lower rank is pre-empted, and the sender's
own motion is replaced where the request neither refreshes nor repeats it (R119, R120). -/
def State.takesOver (s : State) (g : Grant) (o : Owner) : Prop :=
  (o.slot ≠ g.slot ∧ (s.slots.get o.slot).rank < (s.slots.get g.slot).rank) ∨
  (o.slot = g.slot ∧ ¬(g.mode = .hold ∧ o.mode = .hold ∧ g.dir = some o.dir) ∧
    ¬(o.mode = g.mode ∧ o.goal = some g.goal))

/-- What a grant leaves beside the motion it sets (R112, R121, R122, R124): a latch for the HOLD motion that another slot
loses, no datum of a seek, and the hold timer of a HOLD motion. -/
def grantLeaves (s : State) (g : Grant) (o : Owner) (u v : Channel) : Prop :=
  v.latches = (if o.slot = g.slot then u.latches else match o.mode, o.goal with
    | .hold, some (.toEnd e) => u.latches.set o.slot (some ⟨e, s.ms + u.tune.holdTimeout⟩)
    | _, _ => u.latches) ∧
  v.datum = (if o.mode = .reference ∧ u.datum = .seeking then .unreferenced else u.datum) ∧
  v.holdTimer = (if g.mode = .hold then some (s.ms + u.tune.holdTimeout) else none)

/-- A granted MOVE of these bytes is answered: AT_TARGET for a still goal, then CLAMPED for a clamped target (R116, R120;
log entry 28). -/
def grantAnswered (s t : State) (c : Chan) (mode : Mode) (k : GoalKind) (b : List Byte) (g : Grant) : Prop :=
  answered s t g.slot 1
    (if g.dir = none then .atTarget else if (s.ch c).clamps mode k (signedAt b 4) then .clamped else .accepted)
    [byteAt b 1]

/-! ### Bytes of a frame (R191) -/

/-- The number that bytes carry, high byte first. -/
def bigEndian (l : List Byte) : Nat := l.foldl (fun n b => n * 256 + b.toNat) 0

/-- A signed value as the unsigned number of its two's complement in a field of `w` bits. -/
def twosComplement (w : Nat) (p : Int) : Nat := (if p < 0 then p + 2 ^ w else p).toNat

/-! ### Outcomes of reversals (R98, R154) -/

/-- The incident list once the reversal of each channel with an outcome in `o` has reported it with its position:
a record that a reversal names and that has no outcome yet takes it, and every other stays as it is. -/
def outcomesWritten (o : Chan → Option ReversalOutcome) (s : State) : List Incident :=
  s.incidents.map fun r =>
    match Chan.all.find? (fun c => (o c).isSome && decide ((s.ch c).motion.bind (·.incidentRef) = some r.ref)) with
    | some c => if r.outcome = none then { r with outcome := (o c).map fun x => (x, (s.ch c).position) } else r
    | none => r

/-! ### Ranges (R7, R14, R26, R35, R36, R51, R82, R137, R153, R159, R167, R168, R172, R175, R187) -/

/-- Every parameter holds a value inside its range (section 9.5, R187). The numbers run up to 127. -/
def State.tuningInRange (s : State) : Prop :=
  ∀ n < 128,
    (∀ c ∈ Chan.all, ∀ r ∈ chanRange n, r.has ((s.ch c).tune.read n) = true) ∧
    (∀ r ∈ globalRange n, r.has (s.globals.read n) = true) ∧
    (∀ i ∈ Slot.all, ∀ r ∈ slotRange n, r.has ((s.slots.get i).read n) = true)

/-- The numbers a channel holds lie in the ranges the manual gives them, and its tables have Z entries. -/
def Channel.inBounds (c : Channel) : Prop :=
  Config.posMin ≤ c.position ∧ c.position ≤ Config.posMax ∧
  c.stepFaults ≤ 255 ∧ c.reverseFaults ≤ 255 ∧ c.speedFaults ≤ 255 ∧
  c.settled ≤ 63 ∧ c.trips ≤ 7 ∧ c.ring.length ≤ 8 ∧
  c.lastF ≤ 1023 ∧ 1 ≤ c.lastT ∧ c.lastT ≤ 1023 ∧
  c.strikes ≤ 3 ∧ c.duty ≤ 1000 ∧ c.runDuty ≤ 1000 ∧
  c.zones.length = c.tune.z ∧ c.accum.length = c.tune.z ∧
  ∀ m ∈ c.motion, m.runTime ≤ 20000 ∧ m.maxRough ≤ 3

/-- The staged entries are those of the segments received (R71, R73). -/
def Staging.inBounds (l : Staging) : Prop := l.entries.length = 2 * l.expected ∧ l.expected ≤ l.z / 2

/-- The capacities of the lists of the part, and the numbers of its blocks that no timer holds. -/
def State.inBounds (s : State) : Prop :=
  (∀ c ∈ Chan.all, (s.ch c).inBounds) ∧
  s.urgent.length ≤ 4 ∧ s.normal.length ≤ 8 ∧ s.txQueue.length ≤ 12 ∧ s.txErrors ≤ 15 ∧
  s.samples.length ≤ 4 ∧ (∀ v ∈ s.samples, v ≤ 25575) ∧ s.volts ≤ 25575 ∧
  s.incidents.length ≤ 8 ∧ s.roughness ≤ 3 ∧ (∀ l ∈ s.staging, l.inBounds)

/-- The periods of a channel: a running ring holds at most N periods, each 1 to 65535 (R32, R33); a zone entry is at
most 65535 (R56); an accumulator's sum is one of at most 65535 averages of at most 65535 (R62). -/
def Channel.periodsInBounds (c : Channel) : Prop :=
  (c.mstate = .running → c.ring.length ≤ c.tune.n) ∧ (∀ p ∈ c.ring, 1 ≤ p ∧ p ≤ 65535) ∧
  (∀ p ∈ c.zones, p ≤ 65535) ∧ ∀ x ∈ c.accum, x.count ≤ 65535 ∧ x.sum ≤ x.count * 65535

/-- The numbers of an incident record (R47, R152, R159). -/
def Incident.inBounds (r : Incident) : Prop :=
  Config.posMin ≤ r.position ∧ r.position ≤ Config.posMax ∧ r.zone ≤ 63 ∧ r.supply ≤ 25575 ∧ r.roughness ≤ 3 ∧
  1 ≤ r.strikesAfter ∧ r.strikesAfter ≤ 3 ∧ (∀ x ∈ r.force, x.1 ≤ 1023 ∧ 1 ≤ x.2 ∧ x.2 ≤ 1023) ∧
  ∀ x ∈ r.outcome, Config.posMin ≤ x.2 ∧ x.2 ≤ Config.posMax

/-- The numbers of a readout: those of the profile and of the frames handed (R67, R68, R70). -/
def Readout.inBounds (r : Readout) : Prop :=
  r.handed ≤ r.snap.frames ∧ r.snap.entries.length = r.snap.z ∧ (∀ p ∈ r.snap.entries, p ≤ 65535) ∧
  Config.posMin ≤ r.snap.position ∧ r.snap.position ≤ Config.posMax ∧ r.snap.check ≤ 255

/-- The numbers that records, tables and snapshots hold. -/
def State.recordsInBounds (s : State) : Prop :=
  (∀ c ∈ Chan.all, (s.ch c).periodsInBounds) ∧ (∀ r ∈ s.incidents, r.inBounds) ∧ (∀ r ∈ s.readout, r.inBounds) ∧
  ∀ l ∈ s.staging, ∀ p ∈ l.entries, p ≤ 65535

/-! ### The incident list (R153, R154) -/

/-- At most 8 records, and each is its own: the identities, which are the model's (log entry 7), rise, and the next
one is unused. -/
def State.incidentsOwn (s : State) : Prop :=
  s.incidents.length ≤ 8 ∧ s.incidents.Pairwise (fun a b => a.ref < b.ref) ∧ ∀ r ∈ s.incidents, r.ref < s.nextRef

/-! ### The transmit queue (R172) -/

/-- The queue runs from the highest class to the lowest, with at most one STATUS of each channel, at most one
READOUT frame, which an engine in SENDING handed, and at most one frame in transmission. -/
def State.queueOrdered (s : State) : Prop :=
  s.txQueue.length ≤ 12 ∧
  s.txQueue.Pairwise (fun a b => b.frame.tag.rank ≤ a.frame.tag.rank) ∧
  (∀ c ∈ Chan.all, s.txQueue.countP (fun e => e.frame.tag = .status c) ≤ 1) ∧
  s.txQueue.countP (fun e => e.frame.tag = .readout) ≤ 1 ∧
  s.txQueue.countP (fun e => e.onBus.isSome) ≤ 1 ∧
  (s.readout = none → s.txQueue.countP (fun e => e.frame.tag = .readout) = 0)

/-! ### The contact strip (R44) -/

/-- The strip is enabled and asserted, and a drive in direction `d` from the channel's position is one toward 0 (R40,
R44). -/
def Channel.stripPressed (d : Dir) (c : Channel) : Prop :=
  c.tune.stripEnable = true ∧ c.strip.level = true ∧
    ((c.tune.axis = .oneSided ∧ d = .dec) ∨
      (c.tune.axis = .twoSided ∧ ((d = .dec ∧ 0 < c.position) ∨ (d = .inc ∧ c.position < 0))))

/-! ### The drives, the owners and the start queue (R9, R39, R80, R82, R111, R122, R132, R144, R182) -/

/-- The bridge of a channel drives. -/
def Channel.drives (c : Channel) : Bool := c.bridge.dir.isSome

/-- The motion state is one of those in which the bridge drives (R82). -/
def MotionState.driving : MotionState → Bool
  | .starting | .running | .reversing => true
  | _ => false

/-- The bridge and duty that the motion state gives (R82). -/
def Channel.bridgeFollows (c : Channel) : Prop :=
  match c.mstate with
  | .idle | .queued | .paused => c.bridge = .off ∧ c.duty = 0
  | .braking => c.bridge = .brake ∧ c.duty = 0
  | .starting | .running | .reversing => some c.bridge = c.motion.map (·.dir.bridge)

/-- The ownership record that a motion record which holds a master motion gives: its slot, mode, goal and direction,
not pending (R80, R111). -/
def Motion.ownership (m : Motion) : Option Owner := m.owner.map fun i => ⟨i, false, m.mode, m.goal, m.dir⟩

/-- The channel has an owner, and the ownership record holds slot, mode and goal of the motion record, not pending. Its
direction may be another one, since each record keeps its own where a goal gives none (R84, R111). -/
def Channel.owned (c : Channel) : Prop :=
  c.owner.isSome = true ∧
    c.owner.map (fun o => (o.slot, o.pending, o.mode, o.goal)) =
      (c.motion.bind Motion.ownership).map (fun o => (o.slot, o.pending, o.mode, o.goal))

/-- The same with the direction of the motion record. -/
def Channel.ownedWhole (c : Channel) : Prop :=
  c.owner.isSome = true ∧ c.owner = c.motion.bind Motion.ownership

/-- Who owns the channel in its motion state (R111): the owner of its master motion, the pending owner of a MOTION
follow-on, which is EXPRESS or HOLD (R102, R120), or nobody. Only in QUEUED and in PAUSED from MOTION, where a brake
can have ended with a still goal, may the two records hold different directions (R84, R93). -/
def Channel.ownerFollows (c : Channel) : Prop :=
  match c.mstate with
  | .idle | .reversing => c.owner = none
  | .queued => c.owned
  | .starting | .running => c.ownedWhole
  | .paused =>
    if c.motion.bind (·.pausedFrom) = some .motion then c.owned
    else if c.pausedMaster then c.ownedWhole
    else c.owner = none
  | .braking =>
    match c.motion.bind (·.braking) with
    | some ⟨.motion slot mode goal d, _⟩ =>
      c.owner = some ⟨slot, true, mode, some goal, d⟩ ∧ (mode = .express ∨ mode = .hold)
    | _ => c.owner = none

/-- The owned motion has no goal exactly where it is a REFERENCE: every MOVE and GROUP forms a goal (R80, R111, R116,
R128, R130). -/
def Channel.ownerGoal (c : Channel) : Prop := ∀ o ∈ c.owner, o.mode = .reference ↔ o.goal = none

/-- What the motion state of a channel says of its record, bridge, drive phase, timers and owner. -/
def Channel.coherent (c : Channel) : Prop :=
  (c.motion = none ↔ c.mstate = .idle) ∧
  c.bridgeFollows ∧ c.ownerFollows ∧ c.ownerGoal ∧
  ((c.motion.bind (·.braking)).isSome = true ↔ c.mstate = .braking) ∧
  ((c.motion.bind (·.pausedFrom)).isSome = true ↔ c.mstate = .paused) ∧
  c.phase.map (·.dir) = c.bridge.dir ∧
  c.stallTimer.isSome = c.drives ∧
  (c.brakeTimer.isSome = true ↔ c.mstate = .braking) ∧
  (c.ramp.isSome = true ↔ c.mstate = .starting) ∧
  c.runSince.isSome = c.mstate.driving ∧
  (c.holdTimer.isSome = true ↔ c.owner.map (·.mode) = some .hold)

/-- The channels agree with the start queue, with the hold line and with the part state: the queue holds exactly
the QUEUED channels, each once; no bridge drives while the line is ASSERTED; in CONFIG every channel is
IDLE. -/
def State.coherent (s : State) : Prop :=
  (∀ c ∈ Chan.all, (s.ch c).coherent) ∧
  s.startQueue.Nodup ∧ (∀ c ∈ Chan.all, c ∈ s.startQueue ↔ (s.ch c).mstate = .queued) ∧
  (s.holdLine.level = true → ∀ c ∈ Chan.all, (s.ch c).drives = false) ∧
  (s.partState = .config → ∀ c ∈ Chan.all, (s.ch c).mstate = .idle)

/-! ### The travel counter's table (R3) -/

/-- The pair of levels (A, B) that follows another in the forward order of R3. -/
def forwardNext : Bool × Bool → Bool × Bool
  | (false, false) => (true, false)
  | (true, false) => (true, true)
  | (true, true) => (false, true)
  | (false, true) => (false, false)

end Sys2Proof.Machine
end

