-- ==== Sys2Proof/Certificates/Slice0/Obligations.lean ====
section
/-! DEFINITION. The statements for the provers, in the terms of Safety.lean. Each names the rule of the manual it
formalises. A premise `noneDue` says that no STATUS of an earlier step is left over; O4 states that every
step keeps it. -/

open Sys2Proof Sys2Proof.Machine

/-! ### The machine -/

/-- A command at the front of the queue is carried out on the state with the rest of the queue; with no command
waiting the clock goes on by 1 µs and nothing else changes (log entry 1, the model's choice). -/
def Obligations.StepTakesFront : Prop :=
  (∀ c rest s, s.pending = c :: rest → step s = exec c { s with pending := rest }) ∧
  (∀ s : State, s.pending = [] →
    ∃ t, step s = .next t ∧ t.clock = s.clock + 1 ∧ { t with clock := s.clock } = s)

/-- No command stops the part or touches the commands that wait.
That an offer, an end of an attempt or any other event that cannot happen changes nothing is the model's choice
(log entry 8). -/
def Obligations.EveryCommandCompletes : Prop :=
  ∀ c s, ∃ t, exec c s = .next t ∧ t.pending = s.pending

/-- Reset leaves every block at its reset values, the lines and straps read as the pins show (R25, R26, R56, R62,
R109, R136, R143, R151, R163, R164, R165, R179, R180, R183).
The clock at 0 is the model's choice (log entry 1). -/
def Obligations.ResetLeaves : Prop :=
  ∀ pins s, ∃ t, exec (.reset pins) s = .next t ∧ t.pending = s.pending ∧
    (∀ c : Chan,
      (t.ch c).tune = .default ∧
      (t.ch c).hallA = ⟨pins.hallA.get c, none⟩ ∧ (t.ch c).hallB = ⟨pins.hallB.get c, none⟩ ∧
      (t.ch c).strip = ⟨pins.strip.get c, none⟩ ∧
      (t.ch c).position = 0 ∧ (t.ch c).datum = .unreferenced ∧ (t.ch c).edged = false ∧
      (t.ch c).lastEdge = none ∧ (t.ch c).phase = none ∧
      (t.ch c).stepFaults = 0 ∧ (t.ch c).reverseFaults = 0 ∧ (t.ch c).speedFaults = 0 ∧
      (t.ch c).summary = ⟨false, false, false⟩ ∧
      (t.ch c).ring = [] ∧ (t.ch c).settled = 0 ∧ (t.ch c).trips = 0 ∧ (t.ch c).stallTimer = none ∧
      (t.ch c).lastF = 0 ∧ (t.ch c).lastT = 80 ∧
      (t.ch c).zones = List.replicate 32 0 ∧ (t.ch c).accum = List.replicate 32 ⟨0, 0⟩ ∧
      (t.ch c).mstate = .idle ∧ (t.ch c).motion = none ∧ (t.ch c).stopCause = .none ∧
      (t.ch c).bridge = .off ∧ (t.ch c).duty = 0 ∧
      (t.ch c).ramp = none ∧ (t.ch c).brakeTimer = none ∧ (t.ch c).runSince = none ∧
      (t.ch c).owner = none ∧ (t.ch c).holdTimer = none ∧
      (∀ i : Slot, (t.ch c).latches.get i = none ∧ (t.ch c).allowed.get i = true) ∧
      (t.ch c).strikes = 0 ∧ (t.ch c).strikeTimer = none) ∧
    t.clock = 0 ∧ t.globals = .default ∧
    t.slots.get .s0 = ⟨true, 0x5B0#11, 0x7FF#11, 7, 31#5⟩ ∧
    (∀ i : Slot, i ≠ .s0 → t.slots.get i = ⟨false, 0x000#11, 0x7FF#11, 0, 0#5⟩) ∧
    t.bitRate = [125, 250, 500, 1000].getD pins.straps.toNat 0 ∧
    t.urgent = [] ∧ t.normal = [] ∧ t.txQueue = [] ∧ t.txErrors = 0 ∧ t.quietTimer = none ∧
    t.statusTimer = 100 ∧ t.startQueue = [] ∧ t.spacingTimer = none ∧
    t.readout = none ∧ t.staging = none ∧ t.samples = [] ∧ t.volts = 13500 ∧ t.band = .normal ∧
    t.nextSample = 1 ∧ t.holdLine = ⟨false, none⟩ ∧ t.holdLimitTimer = none ∧ t.limitExpired = false ∧
    t.incidents = [] ∧ t.roughness = 0 ∧ t.vehicleTimer = none ∧
    t.partState = .config ∧ t.configTimer = some 3000

/-! ### What every step keeps -/

/-- Each step hands the STATUS frames it triggered at its end, so none is left over (R177, R197). -/
def Obligations.NoStatusLeftOver : Prop :=
  ∀ s t : State, s.noneDue → step s = .next t → t.noneDue

/-- Every tuning parameter holds a value of its range, whatever TUNE carries and START clamps (R186, R187). Every list
stays within its capacity, and position, fault counters, settle-edge and trip counts, last F and T, strikes,
duties, run-time, roughness, voltages and error count stay within their ranges (R7, R14, R26, R35, R36, R51, R82,
R89, R137, R153, R159, R167, R168, R172, R175). On a part in agreement (O6) so do the periods of the rings, the zone
entries and the run accumulators, and the numbers of incident records, readout and staging buffer (R32, R33, R47,
R56, R62, R67, R71). -/
def Obligations.RangesAreKept : Prop :=
  ∀ s t : State, s.tuningInRange → step s = .next t →
    t.tuningInRange ∧ (s.inBounds → t.inBounds) ∧
      (s.coherent → s.inBounds → s.recordsInBounds → t.recordsInBounds)

/-- Every step keeps the motion state, record, bridge, drive phase, timers, owner, start queue, hold line and part
state in agreement: the bridge follows the motion state (R82), the owner is as R111 says, the queue holds exactly
the QUEUED channels (R132), a MOTION follow-on is EXPRESS or HOLD (R102, R120), an owned motion has no goal exactly
where it is a REFERENCE (R116, R130), no bridge drives while the hold line is ASSERTED (R144), and in CONFIG every
channel is IDLE (R182). -/
def Obligations.DrivesStayCoherent : Prop :=
  ∀ s t : State, s.coherent → step s = .next t → t.coherent

/-- The transmit queue keeps its order and its limits: at most 12 frames, one STATUS per channel, one READOUT, one
frame in transmission (R172). The incident list holds at most 8 records, each its own, in the order of declaration
(R153). The identities that tell the records apart are the model's own (log entry 7). -/
def Obligations.ListsStayOrdered : Prop :=
  (∀ s t : State, s.queueOrdered → step s = .next t → t.queueOrdered) ∧
  (∀ s t : State, s.incidentsOwn → step s = .next t → t.incidentsOwn)

/-- The part right after reset, with the reset values of its blocks (R25, R26, R56, R109, R136, R151, R163, R179, R180,
R182, R183), meets all of these.
The levels of its lines and straps (log entry 4), the clock at 0 (log entry 1) and the reset values of the model's own
fields and of the run duty (log entries 7, 26) are the model's choice. -/
def Obligations.ResetMeetsInvariants : Prop :=
  State.reset.noneDue ∧ State.reset.tuningInRange ∧ State.reset.inBounds ∧ State.reset.recordsInBounds ∧
    State.reset.coherent ∧ State.reset.queueOrdered ∧ State.reset.incidentsOwn

/-! ### The Hall lines (R1 to R16) -/

/-- On an IDLE channel without its datum, a single transition that is sampled for the filter time is accepted: it
moves the position by one in the direction R3 gives where the count mode counts it (R4, R5, R6), and
otherwise only updates the accepted levels. A sample at the accepted levels abandons any stability interval,
and nothing is accepted (R1).
The command as a run of equal samples, and its clock, are the model's choice (log entry 6). -/
def Obligations.TransitionsAreCounted : Prop :=
  (∀ (s : State) (c : Chan) (a b a' b' : Bool) (stable : Nat),
     s.noneDue → (s.ch c).mstate = .idle → (s.ch c).bridge = .off → (s.ch c).phase = none →
     (s.ch c).datum = .unreferenced →
     (s.ch c).hallA = ⟨a, none⟩ → (s.ch c).hallB = ⟨b, none⟩ → (a != a') ≠ (b != b') →
     (s.ch c).tune.filter ≤ stable →
     ∃ t, exec (.hallTransition c a' b' stable) s = .next t ∧
       (let counted : Bool := match (s.ch c).tune.countMode with
         | .x1 => !a && a'
         | .x2 => a != a'
         | .x4 => true
       let inc : Bool := (forwardNext (a, b) == (a', b')) != (s.ch c).tune.polarity
       let p := (s.ch c).position
       (t.ch c).hallA = ⟨a', none⟩ ∧ (t.ch c).hallB = ⟨b', none⟩ ∧
       (t.ch c).position = (if !counted then p
         else if inc then (if p < 16383 then p + 1 else p) else (if -16384 < p then p - 1 else p)) ∧
       (t.ch c).edged = ((s.ch c).edged || counted) ∧
       (t.ch c).lastEdge = (if counted then some t.clock else (s.ch c).lastEdge) ∧
       t.clock = max s.clock ((s.ch c).hallSampled + 1) + (s.ch c).tune.filter ∧
       { t.ch c with
         hallA := (s.ch c).hallA, hallB := (s.ch c).hallB, hallSampled := (s.ch c).hallSampled
         position := p, edged := (s.ch c).edged, lastEdge := (s.ch c).lastEdge
         trips := (s.ch c).trips } = s.ch c ∧
       othersKept c s t ∧ { t with clock := s.clock, channels := s.channels } = s)) ∧
  (∀ (s : State) (c : Chan) (stable : Nat), s.noneDue →
     ∃ t, exec (.hallTransition c (s.ch c).hallA.level (s.ch c).hallB.level stable) s = .next t ∧
       (t.ch c).hallA = ⟨(s.ch c).hallA.level, none⟩ ∧ (t.ch c).hallB = ⟨(s.ch c).hallB.level, none⟩ ∧
       { t.ch c with
         hallA := (s.ch c).hallA, hallB := (s.ch c).hallB, hallSampled := (s.ch c).hallSampled } = s.ch c ∧
       othersKept c s t ∧ { t with clock := s.clock, channels := s.channels } = s)

/-- Both lines accepted at one sample is a STEP fault: the STEP counter rises (HOLD stays at 255, WRAP goes to 0),
and nothing is counted, in any motion state (R2, R14). Where the counter becomes equal to Th this is a
threshold event: the kind joins the summary, the datum is lost, and a motion in STARTING or RUNNING stops with
HALL; in IDLE there is nothing to stop (R15, R100).
The command as a run of equal samples, and its clock, are the model's choice (log entry 6). -/
def Obligations.StepFaultsCount : Prop :=
  (∀ (s : State) (c : Chan) (a b : Bool) (stable : Nat),
     let n := (s.ch c).stepFaults
     let n' := if n < 255 then n + 1 else if s.globals.counterMode = .hold then n else 0
     s.noneDue → (s.ch c).hallA = ⟨a, none⟩ → (s.ch c).hallB = ⟨b, none⟩ → (s.ch c).tune.filter ≤ stable →
     n' ≠ s.globals.th →
     ∃ t, exec (.hallTransition c (!a) (!b) stable) s = .next t ∧
       (t.ch c).hallA = ⟨!a, none⟩ ∧ (t.ch c).hallB = ⟨!b, none⟩ ∧ (t.ch c).stepFaults = n' ∧
       { t.ch c with
         hallA := (s.ch c).hallA, hallB := (s.ch c).hallB, hallSampled := (s.ch c).hallSampled
         stepFaults := n } = s.ch c ∧
       othersKept c s t ∧ { t with clock := s.clock, channels := s.channels } = s) ∧
  (∀ (s : State) (c : Chan) (a b : Bool) (stable : Nat),
     s.noneDue → (s.ch c).hallA = ⟨a, none⟩ → (s.ch c).hallB = ⟨b, none⟩ → (s.ch c).tune.filter ≤ stable →
     (s.ch c).stepFaults < 255 → (s.ch c).stepFaults + 1 = s.globals.th →
     (s.ch c).coherent →
     (s.ch c).mstate = .idle ∨ (s.ch c).mstate = .starting ∨ (s.ch c).mstate = .running →
     ∃ t, exec (.hallTransition c (!a) (!b) stable) s = .next t ∧
       (t.ch c).stepFaults = s.globals.th ∧ (t.ch c).summary = { (s.ch c).summary with step := true } ∧
       (t.ch c).datum = .unreferenced ∧ (t.ch c).position = (s.ch c).position ∧
       (if (s.ch c).mstate = .idle then
         (t.ch c).mstate = .idle ∧ (t.ch c).stopCause = (s.ch c).stopCause
       else
         (t.ch c).mstate = .braking ∧ (t.ch c).stopCause = .hall ∧ (t.ch c).bridge = .brake ∧
           (t.ch c).owner = none ∧ (t.ch c).motion.bind (·.braking) = some ⟨.none, true⟩) ∧
       othersKept c s t ∧
       { t with clock := s.clock, channels := s.channels, txQueue := s.txQueue } = s)

/-- A counted edge of a RUNNING channel that is still settling: the position moves, the edge carries a period when
an edge of its drive phase came before, a short period is a SPEED fault and an edge against the drive after
30 ms a REVERSE fault, the stall timer restarts with Ts, and the detector counts a settle edge (R7, R10,
R12, R13, R29, R39). An edge that takes a REFERENCED channel above Lo + To or below −(Lt + To) is an overtravel:
the datum is lost, the fault summary stays, a motion stops with OVERTRAVEL and a reversal takes the outcome HALL;
in IDLE there is nothing to stop, and inside the bounds the datum stays (R17, R97). -/
def Obligations.RunningEdgeIsJudged : Prop :=
  (∀ (s : State) (c : Chan) (d : Dir) (ph : Phase),
      (s.ch c).mstate = .running → (s.ch c).phase = some ph → (s.ch c).bridge = ph.dir.bridge →
      (s.ch c).datum = .unreferenced → (s.ch c).tune.stripEnable = false →
      (s.ch c).settled < (s.ch c).tune.ms → (s.ch c).settled < 63 →
      (∀ x, ({ s.ch c with position := x }).motionEnd = none) →
      (s.ch c).reverseFaults < 255 → (s.ch c).speedFaults < 255 →
      (s.ch c).reverseFaults + 1 ≠ s.globals.th → (s.ch c).speedFaults + 1 ≠ s.globals.th →
      let t := countEdge c d s
      let age := (s.ch c).lastEdge.map fun e => min 65535 (s.clock - e)
      let period := if ph.edgeSeen then age else none
      (t.ch c).position = stepPosition (s.ch c).position d ∧ (t.ch c).edged = true ∧
      (t.ch c).lastEdge = some s.clock ∧ (t.ch c).phase = some { ph with edgeSeen := true } ∧
      (t.ch c).speedFaults = (s.ch c).speedFaults +
        (if ∃ p, period = some p ∧ p < (s.ch c).tune.pmin then 1 else 0) ∧
      (t.ch c).reverseFaults = (s.ch c).reverseFaults +
        (if d ≠ ph.dir ∧ 30000 < s.clock - ph.began then 1 else 0) ∧
      (t.ch c).stallTimer = some (s.ms + (s.ch c).tune.ts) ∧
      (t.ch c).settled = (s.ch c).settled + 1 ∧ (t.ch c).trips = 0 ∧
      (t.ch c).ring = (s.ch c).ring ∧ (t.ch c).lastF = (s.ch c).lastF ∧ (t.ch c).lastT = (s.ch c).lastT ∧
      (t.ch c).mstate = .running ∧ (t.ch c).stepFaults = (s.ch c).stepFaults ∧
      othersKept c s t ∧ { t with channels := s.channels } = s) ∧
  (∀ (s : State) (c : Chan) (d : Dir),
    let u := s.ch c
    let p := stepPosition u.position d
    let lt : Int := if u.tune.axis = .oneSided then 0 else u.tune.lt
    let out := (u.tune.lo : Int) + u.tune.overtravel < p ∨ p < -(lt + u.tune.overtravel)
    let t := countEdge c d s
    u.coherent → u.datum = .referenced →
    (out → u.reverseFaults < 255 → u.speedFaults < 255 →
      u.reverseFaults + 1 ≠ s.globals.th → u.speedFaults + 1 ≠ s.globals.th →
      u.mstate = .idle ∨ u.mstate = .starting ∨ u.mstate = .running ∨ u.mstate = .reversing →
      (t.ch c).position = p ∧ (t.ch c).datum = .unreferenced ∧ (t.ch c).summary = u.summary ∧
      (t.ch c).stepFaults = u.stepFaults ∧ (t.ch c).strikes = u.strikes ∧ (t.ch c).zones = u.zones ∧
      (if u.mstate = .idle then (t.ch c).mstate = .idle ∧ (t.ch c).stopCause = u.stopCause
      else
        (t.ch c).mstate = .braking ∧ (t.ch c).bridge = .brake ∧ (t.ch c).stopCause = .overtravel ∧
          (t.ch c).owner = none ∧ (t.ch c).motion.bind (·.braking) = some ⟨.none, true⟩) ∧
      t.incidents = outcomesWritten
        (fun x => if x = c ∧ u.mstate = .reversing then some .hall else none)
        (s.modCh c fun u => { u with position := p }) ∧
      othersKept c s t ∧ { t with channels := s.channels, incidents := s.incidents } = s) ∧
    (¬out → u.mstate = .idle →
      (t.ch c).position = p ∧ (t.ch c).edged = true ∧ (t.ch c).lastEdge = some s.clock ∧
      { t.ch c with position := u.position, edged := u.edged, lastEdge := u.lastEdge, trips := u.trips } = u ∧
      othersKept c s t ∧ { t with channels := s.channels } = s))

/-! ### The detector (R32 to R38, R47 to R49) -/

/-- Stage 1: a period scaled by the clamped voltage, rounded half up, and clamped to 1 to 65535 (R32). -/
def Obligations.PeriodIsCorrected : Prop :=
  ∀ p v vc : Nat, 1 ≤ p → p ≤ 65535 →
    (v < 9000 → vc = 9000) → (9000 ≤ v → v ≤ 16000 → vc = v) → (16000 < v → vc = 16000) →
    1 ≤ correctedPeriod p v ∧ correctedPeriod p v ≤ 65535 ∧
    (correctedPeriod p v ≠ 1 → 2 * 13500 * correctedPeriod p v ≤ 2 * (p * vc) + 13500) ∧
    (correctedPeriod p v ≠ 65535 → 2 * (p * vc) + 13500 < 2 * 13500 * (correctedPeriod p v + 1))

/-- A fed edge. While the ring fills, its corrected period joins the ring and nothing is computed (R33). At the edge that
fills the ring and on a full ring the average, the force and the threshold are those of R33 to R36, with the margin of the roughness level and the
margins of an unlearned zone and of a HOLD close at three strikes; at an armed edge the average joins the
accumulator of its zone (R31, R38, R62); and a PINCH is declared exactly when the stage is armed, F is at least T
and Q consecutive trips are reached (R31, R37). Of the edges a detector takes, those in RUNNING after the settle
edges that carry a period are fed, and at no other is anything computed (R27, R29, R30). A PINCH at a fed edge is
an incident with the F and T of that edge, and the drive brakes toward a reversal (R37, R47, R48, R94, R152).
The identity of the record is the model's own (log entry 7). -/
def Obligations.FedEdgeIsComputed : Prop :=
  (∀ (c : Channel) (g : GlobalTuning) (rough volts p : Nat) (closing : Bool), rough ≤ 3 →
    let x := c.fed volts (g.arough rough) closing p
    let pc := correctedPeriod p volts
    (c.ring.length + 1 < c.tune.n →
      x.2 = false ∧ x.1.ring = c.ring ++ [pc] ∧ x.1.trips = 0 ∧
      { x.1 with ring := c.ring, trips := c.trips } = c) ∧
    (1 ≤ c.tune.n → c.ring.length = c.tune.n ∨ c.ring.length + 1 = c.tune.n →
      let ring := (if c.ring.length = c.tune.n then c.ring.tail else c.ring) ++ [pc]
      let a := ring.sum / c.tune.n
      let z := zoneOf c.tune c.position
      let pref := c.zones.getD z 0
      let r0 := if pref = 0 then c.tune.pdef else pref
      let e := if r0 < a then a - r0 else 0
      let f := min 1023 (e * c.tune.kf / 256)
      let arough := if rough = 0 then 0 else if rough = 1 then g.arough1 else if rough = 2 then g.arough2
        else g.arough3
      let override := if c.strikes = 3 ∧ c.motion.map (·.mode) = some .hold then c.tune.mo else 0
      let t := max 1 (min 1023 (c.tune.tb + arough + (if pref = 0 then c.tune.mu else 0) + override))
      let armed := c.mstate = .running ∧ c.datum = .referenced ∧ closing = true ∧
        c.tune.s < c.position.natAbs ∧ c.position.natAbs ≤ c.tune.b ∧ c.tune.ms ≤ c.settled
      x.1.ring = ring ∧ x.1.lastF = f ∧ x.1.lastT = t ∧
      (x.2 = true ↔ armed ∧ t ≤ f ∧ c.tune.q ≤ c.trips + 1) ∧
      x.1.trips = (if armed ∧ t ≤ f ∧ c.trips + 1 < c.tune.q then c.trips + 1 else 0) ∧
      x.1.accum = (if armed then
        c.accum.modify z fun y => if y.count = 65535 then y else ⟨y.sum + a, y.count + 1⟩
      else c.accum) ∧
      { x.1 with
        ring := c.ring, lastF := c.lastF, lastT := c.lastT, trips := c.trips, accum := c.accum } = c)) ∧
  (∀ (s : State) (c : Chan) (closing : Bool) (period : Option Nat),
    let u := s.ch c
    let t := detectEdge c closing period s
    let becomes (v : Channel) : Prop := t.ch c = v ∧ othersKept c s t ∧ { t with channels := s.channels } = s
    (u.mstate ≠ .running ∨ (u.tune.ms ≤ u.settled ∧ period = none) → becomes { u with trips := 0 }) ∧
    (u.mstate = .running → u.settled < u.tune.ms →
      becomes { u with settled := min 63 (u.settled + 1), trips := 0 }) ∧
    (∀ p, period = some p → u.mstate = .running → u.tune.ms ≤ u.settled →
      let x := u.fed s.volts (s.globals.arough s.roughness) closing p
      (x.2 = false → becomes x.1) ∧
      (x.2 = true → ∀ m ∈ u.motion, ∀ o ∈ u.owner,
        t.incidents = (if s.incidents.length < 8 then s.incidents else s.incidents.drop 1) ++
          [⟨s.nextRef, s.partTime, c, .pinch, u.position, zoneOf u.tune u.position, some (x.1.lastF, x.1.lastT),
            s.volts, s.roughness, o.slot, m.mode, min 3 (u.strikes + 1), none⟩] ∧
        (t.ch c).mstate = .braking ∧ (t.ch c).bridge = .brake ∧ (t.ch c).stopCause = .pinch ∧
        (t.ch c).owner = none ∧ (t.ch c).motion.bind (·.braking) = some ⟨.reversal, false⟩ ∧
        (t.ch c).strikes = min 3 (u.strikes + 1) ∧ (t.ch c).trips = 0 ∧ (t.ch c).ring = x.1.ring ∧
        (t.ch c).lastF = x.1.lastF ∧ (t.ch c).lastT = x.1.lastT ∧ (t.ch c).accum = x.1.accum ∧
        (t.ch c).position = u.position ∧ (t.ch c).zones = u.zones ∧ othersKept c s t ∧
        { t with
          channels := s.channels, incidents := s.incidents, nextRef := s.nextRef
          txQueue := s.txQueue, readout := s.readout } = s)))

/-- An incident declared on a STARTING or RUNNING channel: the strike count and its window, the record, and the drive
braking toward a reversal with the owner released, a HOLD owner with a latch for its end (R48, R49, R94, R124,
R152, R153, R159). The INCIDENT frame of the record joins the queue behind the INCIDENT frames there (R155, R172),
with the bytes of R194.
The identity of the record is the model's own (log entry 7). -/
def Obligations.IncidentBrakesTowardReversal : Prop :=
  (∀ (s : State) (c : Chan) (cause : IncidentCause) (force : Option (Nat × Nat)) (m : Motion) (o : Owner),
      (s.ch c).mstate = .starting ∨ (s.ch c).mstate = .running →
      (s.ch c).drives = true → (s.ch c).motion = some m → (s.ch c).owner = some o →
      let t := declareIncident c cause force s
      let r : Incident := ⟨s.nextRef, s.partTime, c, cause, (s.ch c).position,
        zoneOf (s.ch c).tune (s.ch c).position, force, s.volts, s.roughness, o.slot, m.mode,
        min 3 ((s.ch c).strikes + 1), none⟩
      t.incidents = (if s.incidents.length < 8 then s.incidents else s.incidents.drop 1) ++ [r] ∧
      (t.ch c).strikes = min 3 ((s.ch c).strikes + 1) ∧
      (t.ch c).strikeTimer = some (s.ms + s.globals.strikeWindow * 1000) ∧
      (t.ch c).mstate = .braking ∧ (t.ch c).bridge = .brake ∧ (t.ch c).duty = 0 ∧
      (t.ch c).stallTimer = none ∧ (t.ch c).brakeTimer = some (s.ms + (s.ch c).tune.brake) ∧
      (t.ch c).stopCause = cause.stop ∧ (t.ch c).owner = none ∧
      ((s.ch c).mstate = .running → (t.ch c).trips = 0) ∧
      (t.ch c).datum = (if (s.ch c).datum = .seeking then .unreferenced else (s.ch c).datum) ∧
      (∃ m', (t.ch c).motion = some m' ∧ m'.mode = .reversal ∧ m'.owner = none ∧ m'.goal = none ∧
        m'.braking = some ⟨.reversal, false⟩ ∧ m'.incidentRef = some s.nextRef ∧ m'.incidentFree = false ∧
        m'.supplyNormal = m.supplyNormal ∧ m'.holdFree = m.holdFree ∧ m'.maxRough = m.maxRough) ∧
      (t.ch c).latches = (match o.mode, o.goal with
        | .hold, some (.toEnd e) =>
          (s.ch c).latches.set o.slot (some ⟨e, s.ms + (s.ch c).tune.holdTimeout⟩)
        | _, _ => (s.ch c).latches) ∧
      (t.ch c).holdTimer = none ∧
      (s.txQueue.length < 12 →
        ∃ x y, s.txQueue = x ++ y ∧ t.txQueue = x ++ ⟨incidentFrame s.globals r, none, false⟩ :: y ∧
          (∀ e ∈ y.head?, e.frame.tag ≠ .incident) ∧ ∀ e ∈ x, e.frame.tag = .incident) ∧
      (t.ch c).position = (s.ch c).position ∧ othersKept c s t ∧
      { t with
        channels := s.channels, incidents := s.incidents, nextRef := s.nextRef
        txQueue := s.txQueue, readout := s.readout } = s) ∧
  (∀ (g : GlobalTuning) (r : Incident) (f t : Nat), r.strikesAfter ≤ 3 → r.zone ≤ 63 →
    -16384 ≤ r.position → r.position ≤ 16383 → f ≤ 1023 → t ≤ 1023 →
    r.force = some (f, t) ∨ (r.force = none ∧ f = 0 ∧ t = 0) →
    let w := twosComplement 16 r.position
    (incidentFrame g r).ident = BitVec.ofNat 11 g.incidentId ∧ (incidentFrame g r).tag = .incident ∧
    (incidentFrame g r).data.map (·.toNat) =
      [r.chan.toNat * 32 + (match r.cause with | .pinch => 0 | .stall => 1 | .edge => 2) * 8 + r.strikesAfter * 2,
        r.owner.toNat * 64 + r.zone, w / 256, w % 256, f / 256, f % 256, t / 256, t % 256])

/-- The STRIP filter follows its line: a level held for 50 µs is accepted, and where the strip does not trip nothing else
changes: on a channel that is not enabled, at a release, outside STARTING and RUNNING, while the bridge drives away
from 0, and inside the seal zone of a REFERENCED channel (R43, R44). Asserted while the bridge drives toward 0 outside the seal zone it brakes
the bridge and is an EDGE incident (R44, R45, R94).
The command as a run of equal samples, and its clock, are the model's choice (log entry 6). -/
def Obligations.StripIsJudged : Prop :=
  (∀ (s : State) (c : Chan) (level : Bool) (stable : Nat),
     s.noneDue → (s.ch c).strip = ⟨!level, none⟩ → 50 ≤ stable →
     (s.ch c).tune.stripEnable = false ∨ level = false ∨
       ((s.ch c).mstate ≠ .starting ∧ (s.ch c).mstate ≠ .running) ∨ (s.ch c).drivesTowardZero = false ∨
       ((s.ch c).datum = .referenced ∧ (s.ch c).position.natAbs ≤ (s.ch c).tune.s) →
     ∃ t, exec (.stripAsserted c level stable) s = .next t ∧ (t.ch c).strip = ⟨level, none⟩ ∧
       t.clock = max s.clock ((s.ch c).stripSampled + 1) + 50 ∧
       { t.ch c with strip := (s.ch c).strip, stripSampled := (s.ch c).stripSampled } = s.ch c ∧
       othersKept c s t ∧ { t with clock := s.clock, channels := s.channels } = s) ∧
  (∀ (s : State) (c : Chan) (stable : Nat) (m : Motion) (o : Owner),
     s.noneDue → (s.ch c).strip = ⟨false, none⟩ → 50 ≤ stable → (s.ch c).tune.stripEnable = true →
     (s.ch c).mstate = .starting ∨ (s.ch c).mstate = .running → (s.ch c).motion = some m →
     (s.ch c).owner = some o → (s.ch c).drivesTowardZero = true →
     ¬((s.ch c).datum = .referenced ∧ (s.ch c).position.natAbs ≤ (s.ch c).tune.s) →
     ∃ t, exec (.stripAsserted c true stable) s = .next t ∧
       (t.ch c).strip = ⟨true, none⟩ ∧ (t.ch c).mstate = .braking ∧ (t.ch c).bridge = .brake ∧
       (t.ch c).stopCause = .edge ∧ (t.ch c).owner = none ∧
       (t.ch c).strikes = min 3 ((s.ch c).strikes + 1) ∧
       (t.ch c).motion.bind (·.braking) = some ⟨.reversal, false⟩ ∧
       (∃ r, t.incidents.getLast? = some r ∧ r.cause = .edge ∧ r.chan = c ∧ r.owner = o.slot ∧
         r.position = (s.ch c).position ∧ r.force = none) ∧
       (t.ch c).position = (s.ch c).position ∧ (t.ch c).zones = (s.ch c).zones ∧ othersKept c s t ∧
       { t with
         clock := s.clock, channels := s.channels, incidents := s.incidents, nextRef := s.nextRef
         txQueue := s.txQueue, readout := s.readout } = s)

/-! ### Stalls (R20, R22, R40, R41) -/

/-- A stall that finds an end sets position and datum and ends the motion: at the reference end of a seek with
REFERENCED, at the closed end with CLOSED; faults are cleared (R16, R20, R22, R40, R41).
The moment to which the clock goes is the model's choice (log entry 2). -/
def Obligations.StallFindsTheEnd : Prop :=
  ∀ (s : State) (c : Chan) (d : Nat) (m : Motion),
    s.noneDue → (s.ch c).stallTimer = some d → (s.ch c).motion = some m → (s.ch c).drives = true →
    (s.ch c).mstate = .starting ∨ (s.ch c).mstate = .running →
    (s.ch c).datum = .seeking ∨
      ((s.ch c).drivesTowardZero = true ∧ (s.ch c).tune.closedEnd = .stall ∧
        ((s.ch c).datum = .unreferenced ∨ (s.ch c).position.natAbs ≤ (s.ch c).tune.s)) →
    ∃ t, exec (.stallTimerExpiry c) s = .next t ∧ t.clock = max s.clock (d * 1000) ∧
      (t.ch c).position = (if (s.ch c).datum = .seeking ∧ (s.ch c).tune.refEnd = .negative
        then -((s.ch c).tune.ltUsed : Int) else 0) ∧
      (t.ch c).stopCause = (if (s.ch c).datum = .seeking then .referenced else .closed) ∧
      (t.ch c).datum = .referenced ∧ (t.ch c).summary = ⟨false, false, false⟩ ∧
      (t.ch c).stepFaults = 0 ∧ (t.ch c).reverseFaults = 0 ∧ (t.ch c).speedFaults = 0 ∧
      (t.ch c).mstate = .braking ∧ (t.ch c).bridge = .brake ∧ (t.ch c).duty = 0 ∧
      (t.ch c).stallTimer = none ∧ (t.ch c).brakeTimer = some (t.ms + (s.ch c).tune.brake) ∧
      (t.ch c).owner = none ∧ (t.ch c).motion.bind (·.braking) = some ⟨.none, true⟩ ∧
      (t.ch c).zones = (s.ch c).zones ∧ (t.ch c).strikes = (s.ch c).strikes ∧
      statusHanded c s t ∧ othersKept c s t ∧
      { t with clock := s.clock, channels := s.channels, txQueue := s.txQueue } = s

/-- A stall away from 0 is a plain stall and declares nothing; a stall in RUNNING toward 0 on a REFERENCED channel
inside the pinch band is a STALL incident (R40, R41, R47). A stall in REVERSING ends the reversal with the cause
STALL, and its record, if still in the list, takes the outcome STALLED and the position (R40, R41, R97, R98). -/
def Obligations.StallIsClassified : Prop :=
  (∀ (s : State) (c : Chan) (d : Nat) (m : Motion),
    s.noneDue → (s.ch c).stallTimer = some d → (s.ch c).motion = some m → (s.ch c).drives = true →
    (s.ch c).mstate = .starting ∨ (s.ch c).mstate = .running →
    (s.ch c).datum ≠ .seeking → (s.ch c).drivesTowardZero = false →
    ∃ t, exec (.stallTimerExpiry c) s = .next t ∧
      (t.ch c).mstate = .braking ∧ (t.ch c).bridge = .brake ∧ (t.ch c).stopCause = .stall ∧
      (t.ch c).owner = none ∧ (t.ch c).motion.bind (·.braking) = some ⟨.none, true⟩ ∧
      (t.ch c).position = (s.ch c).position ∧ (t.ch c).datum = (s.ch c).datum ∧
      (t.ch c).strikes = (s.ch c).strikes ∧ othersKept c s t ∧
      { t with clock := s.clock, channels := s.channels, txQueue := s.txQueue } = s) ∧
  (∀ (s : State) (c : Chan) (d : Nat) (m : Motion) (o : Owner),
    s.noneDue → (s.ch c).stallTimer = some d → (s.ch c).motion = some m → (s.ch c).owner = some o →
    (s.ch c).mstate = .running → (s.ch c).datum = .referenced → (s.ch c).drivesTowardZero = true →
    (s.ch c).tune.s < (s.ch c).position.natAbs → (s.ch c).position.natAbs ≤ (s.ch c).tune.b →
    ∃ t, exec (.stallTimerExpiry c) s = .next t ∧
      (t.ch c).mstate = .braking ∧ (t.ch c).bridge = .brake ∧ (t.ch c).stopCause = .stall ∧
      (t.ch c).owner = none ∧ (t.ch c).motion.bind (·.braking) = some ⟨.reversal, false⟩ ∧
      (t.ch c).strikes = min 3 ((s.ch c).strikes + 1) ∧ (t.ch c).datum = .referenced ∧
      (∃ r, t.incidents.getLast? = some r ∧ r.cause = .stall ∧ r.chan = c ∧
        r.position = (s.ch c).position ∧ r.force = none) ∧
      (t.ch c).position = (s.ch c).position ∧ (t.ch c).zones = (s.ch c).zones ∧ othersKept c s t ∧
      { t with
        clock := s.clock, channels := s.channels, incidents := s.incidents, nextRef := s.nextRef
        txQueue := s.txQueue, readout := s.readout } = s) ∧
  (∀ (s : State) (c : Chan) (d : Nat),
    s.noneDue → (s.ch c).stallTimer = some d → (s.ch c).coherent →
    (s.ch c).mstate = .reversing → (s.ch c).datum ≠ .seeking →
    ∃ t, exec (.stallTimerExpiry c) s = .next t ∧
      (t.ch c).mstate = .braking ∧ (t.ch c).bridge = .brake ∧ (t.ch c).stopCause = .stall ∧
      (t.ch c).motion.bind (·.braking) = some ⟨.none, true⟩ ∧
      (t.ch c).stallTimer = none ∧ (t.ch c).brakeTimer = some (t.ms + (s.ch c).tune.brake) ∧
      t.incidents = outcomesWritten (fun x => if x = c then some .stalled else none) s ∧
      (t.ch c).position = (s.ch c).position ∧ (t.ch c).datum = (s.ch c).datum ∧
      (t.ch c).strikes = (s.ch c).strikes ∧ (t.ch c).zones = (s.ch c).zones ∧ othersKept c s t ∧
      { t with clock := s.clock, channels := s.channels, incidents := s.incidents, txQueue := s.txQueue } = s)

/-! ### Starting, running and braking (R84 to R96, R133, R134) -/

/-- The head of the start queue is admitted while fewer than M channels drive, the spacing timer is stopped and the
hold line RELEASED: it leaves the queue and drives toward its goal, at the start duty under the ramp, or in
RUNNING at once with ramp time 0, and the start spacing begins (R28, R39, R84, R85, R133, R134); its gates are
those of its bridge state once the dead time has passed (R82, R190). A REFERENCE drives DEC at the limp duty and
makes the datum SEEKING (R19, R84, R85). An enabled strip that is asserted where the drive toward 0 begins trips at
once, but not inside the seal zone of a REFERENCED channel: the channel has started and brakes toward a reversal
with an EDGE incident, and a seek has lost its datum (R21, R44, R45, R94). Otherwise nothing is admitted (R133).
The field `started` of the record is the model's own (log entry 7), and the dead time counts in whole µs (log
entry 21). -/
def Obligations.AdmissionStartsTheHead : Prop :=
  (∀ (s : State) (c : Chan) (rest : List Chan) (m : Motion) (g : Goal) (d : Dir),
    s.noneDue → s.startQueue = c :: rest → s.driving < s.globals.m → s.spacingTimer = none →
    s.holdLine.level = false → (s.ch c).mstate = .queued → (s.ch c).bridge = .off →
    (s.ch c).motion = some m → m.goal = some g → m.mode ≠ .reference →
    ¬((s.ch c).stripPressed d ∧ ¬((s.ch c).datum = .referenced ∧ (s.ch c).position.natAbs ≤ (s.ch c).tune.s)) →
    goalDir (s.ch c).tune.axis g (s.ch c).position = some d →
    endCause (s.ch c).tune (s.ch c).datum g d (s.ch c).position = none →
    ∃ t, exec .admission s = .next t ∧
      (let rd := if (s.ch c).datum = .referenced then (s.ch c).tune.runDuty else (s.ch c).tune.limpDuty
      t.startQueue = rest ∧
      t.spacingTimer = (if s.globals.spacing = 0 then none else some (s.ms + s.globals.spacing)) ∧
      (t.ch c).bridge = d.bridge ∧ (t.ch c).phase = some ⟨d, s.clock, false⟩ ∧
      (t.ch c).stallTimer = some (s.ms + (s.ch c).tune.tss) ∧ (t.ch c).runDuty = rd ∧
      (t.ch c).runSince = some s.ms ∧ (t.ch c).datum = (s.ch c).datum ∧
      (t.ch c).accum = List.replicate (s.ch c).tune.z ⟨0, 0⟩ ∧
      (t.ch c).motion = some { m with
        dir := d, started := true, maxRough := max m.maxRough s.roughness
        supplyNormal := m.supplyNormal && decide (s.band = .normal) } ∧
      (if (s.ch c).tune.ramp = 0 then
        (t.ch c).mstate = .running ∧ (t.ch c).ramp = none ∧ (t.ch c).ring = [] ∧
          (t.ch c).settled = 0 ∧ (t.ch c).trips = 0
      else
        (t.ch c).mstate = .starting ∧ (t.ch c).duty = (s.ch c).tune.startDuty ∧
          (t.ch c).ramp = some ⟨s.ms, s.ms⟩) ∧
      (∀ now, (t.ch c).gatesAt now = (if now < s.clock + 1 then (⟨.off, .off⟩, ⟨.off, .off⟩)
        else match d with
          | .inc => (⟨.switched (t.ch c).duty, .off⟩, ⟨.off, .on⟩)
          | .dec => (⟨.off, .on⟩, ⟨.switched (t.ch c).duty, .off⟩))) ∧
      othersKept c s t ∧
      { t with
        channels := s.channels, txQueue := s.txQueue, startQueue := s.startQueue
        spacingTimer := s.spacingTimer } = s)) ∧
  (∀ (s : State) (c : Chan) (rest : List Chan) (m : Motion),
    s.noneDue → s.startQueue = c :: rest → s.driving < s.globals.m → s.spacingTimer = none →
    s.holdLine.level = false → (s.ch c).mstate = .queued → (s.ch c).bridge = .off →
    (s.ch c).motion = some m → m.mode = .reference → m.goal = none → ¬(s.ch c).stripPressed .dec →
    ∃ t, exec .admission s = .next t ∧ t.startQueue = rest ∧
      t.spacingTimer = (if s.globals.spacing = 0 then none else some (s.ms + s.globals.spacing)) ∧
      (t.ch c).datum = .seeking ∧ (t.ch c).runDuty = (s.ch c).tune.limpDuty ∧
      (t.ch c).bridge = .driveDec ∧ (t.ch c).phase = some ⟨.dec, s.clock, false⟩ ∧
      (t.ch c).stallTimer = some (s.ms + (s.ch c).tune.tss) ∧ (t.ch c).runSince = some s.ms ∧
      (t.ch c).accum = List.replicate (s.ch c).tune.z ⟨0, 0⟩ ∧
      (t.ch c).motion = some { m with
        dir := .dec, started := true, maxRough := max m.maxRough s.roughness
        supplyNormal := m.supplyNormal && decide (s.band = .normal) } ∧
      (if (s.ch c).tune.ramp = 0 then
        (t.ch c).mstate = .running ∧ (t.ch c).duty = (s.ch c).tune.limpDuty ∧ (t.ch c).ramp = none
      else
        (t.ch c).mstate = .starting ∧ (t.ch c).duty = (s.ch c).tune.startDuty ∧
          (t.ch c).ramp = some ⟨s.ms, s.ms⟩) ∧
      (t.ch c).position = (s.ch c).position ∧ (t.ch c).stopCause = (s.ch c).stopCause ∧ othersKept c s t ∧
      { t with
        channels := s.channels, txQueue := s.txQueue, startQueue := s.startQueue
        spacingTimer := s.spacingTimer } = s) ∧
  (∀ (s : State) (c : Chan) (rest : List Chan) (m : Motion) (o : Owner) (d : Dir),
    let u := s.ch c
    s.noneDue → s.startQueue = c :: rest → s.driving < s.globals.m → s.spacingTimer = none →
    s.holdLine.level = false → u.mstate = .queued → u.bridge = .off → u.motion = some m → u.owner = some o →
    (m.mode = .reference ∧ m.goal = none ∧ d = .dec) ∨
      (m.mode ≠ .reference ∧ ¬(u.datum = .referenced ∧ u.position.natAbs ≤ u.tune.s) ∧
        ∃ g, m.goal = some g ∧ goalDir u.tune.axis g u.position = some d ∧
          endCause u.tune u.datum g d u.position = none) →
    u.stripPressed d →
    ∃ t, exec .admission s = .next t ∧ t.startQueue = rest ∧
      t.spacingTimer = (if s.globals.spacing = 0 then none else some (s.ms + s.globals.spacing)) ∧
      (t.ch c).mstate = .braking ∧ (t.ch c).bridge = .brake ∧ (t.ch c).duty = 0 ∧ (t.ch c).ramp = none ∧
      (t.ch c).stallTimer = none ∧ (t.ch c).runSince = none ∧ (t.ch c).stopCause = .edge ∧
      (t.ch c).owner = none ∧ (t.ch c).holdTimer = none ∧
      (t.ch c).brakeTimer = some (s.ms + u.tune.brake) ∧
      (t.ch c).motion.map (·.braking) = some (some ⟨.reversal, false⟩) ∧
      (t.ch c).motion.map (·.started) = some true ∧
      (t.ch c).datum = (if m.mode = .reference ∨ u.datum = .seeking then .unreferenced else u.datum) ∧
      (t.ch c).strikes = min 3 (u.strikes + 1) ∧ (t.ch c).position = u.position ∧ (t.ch c).zones = u.zones ∧
      (∃ r, t.incidents.getLast? = some r ∧ r.cause = .edge ∧ r.chan = c ∧ r.owner = o.slot ∧ r.mode = m.mode ∧
        r.position = u.position ∧ r.force = none) ∧
      (∀ now, (t.ch c).gatesAt now =
        (if now < s.clock + 1 then (⟨.off, .off⟩, ⟨.off, .off⟩) else (⟨.off, .on⟩, ⟨.off, .on⟩))) ∧
      othersKept c s t ∧
      { t with
        channels := s.channels, txQueue := s.txQueue, startQueue := s.startQueue, spacingTimer := s.spacingTimer
        incidents := s.incidents, nextRef := s.nextRef, readout := s.readout } = s) ∧
  (∀ s : State, s.globals.m ≤ s.driving ∨ s.spacingTimer.isSome = true ∨ s.holdLine.level = true →
    exec .admission s = .next s)

/-- A motion whose end condition already holds at its admission ends without driving, with the cause of R88's
table, and starts no spacing timer (R85, R134). -/
def Obligations.AdmissionMayEndAtOnce : Prop :=
  ∀ (s : State) (c : Chan) (rest : List Chan) (m : Motion) (g : Goal) (cause : StopCause),
    s.noneDue → s.startQueue = c :: rest → s.driving < s.globals.m → s.spacingTimer = none →
    s.holdLine.level = false → (s.ch c).mstate = .queued → (s.ch c).bridge = .off →
    (s.ch c).motion = some m → m.goal = some g → m.mode ≠ .reference →
    endCause (s.ch c).tune (s.ch c).datum g
      ((goalDir (s.ch c).tune.axis g (s.ch c).position).getD m.dir) (s.ch c).position = some cause →
    ∃ t, exec .admission s = .next t ∧ t.startQueue = rest ∧ t.spacingTimer = none ∧
      (t.ch c).mstate = .idle ∧ (t.ch c).motion = none ∧ (t.ch c).owner = none ∧
      (t.ch c).holdTimer = (if (s.ch c).owner = none then (s.ch c).holdTimer else none) ∧
      (t.ch c).bridge = .off ∧ (t.ch c).duty = 0 ∧ (t.ch c).stopCause = cause ∧
      (t.ch c).position = (s.ch c).position ∧ othersKept c s t ∧
      { t with channels := s.channels, txQueue := s.txQueue, startQueue := s.startQueue } = s

/-- The end conditions of a motion, the first line of the table that holds: CLOSED, then TARGET, then LIMIT (R88; a
target of 0 is held as the goal CLOSE, R84). They are checked at each edge report in STARTING and RUNNING,
but not for a REFERENCE, and a met one ends the motion through BRAKING with its cause (R88, R90). -/
def Obligations.EndConditionsAreOrdered : Prop :=
  (∀ (t : ChanTuning) (datum : Datum) (g : Goal) (d : Dir) (p : Int),
    let closes := g = .toEnd .toClose ∨ g = .target 0
    let closed := closes ∧ ((t.axis = .twoSided ∧ p = 0) ∨
      (t.axis = .oneSided ∧ t.closedEnd = .position ∧ p ≤ 0))
    let target := ∃ x, g = .target x ∧ x ≠ 0 ∧ ((d = .inc ∧ x ≤ p) ∨ (d = .dec ∧ p ≤ x))
    let limit := datum = .referenced ∧
      ((d = .inc ∧ (t.lo : Int) ≤ p) ∨ (t.axis = .twoSided ∧ d = .dec ∧ p ≤ -(t.lt : Int)))
    (endCause t datum g d p = some .closed ↔ closed) ∧
    (endCause t datum g d p = some .target ↔ ¬closed ∧ target) ∧
    (endCause t datum g d p = some .limit ↔ ¬closed ∧ ¬target ∧ limit) ∧
    (endCause t datum g d p = none ↔ ¬closed ∧ ¬target ∧ ¬limit)) ∧
  (∀ (s : State) (c : Chan) (m : Motion),
    (s.ch c).mstate = .starting ∨ (s.ch c).mstate = .running → (s.ch c).motion = some m →
    let t := driveEdge c s
    let met := if m.mode = .reference then none
      else m.goal.bind fun g => endCause (s.ch c).tune (s.ch c).datum g m.dir (s.ch c).position
    (if met = none then
      (t.ch c).mstate = (s.ch c).mstate ∧ { t.ch c with duty := (s.ch c).duty } = s.ch c
    else
      (t.ch c).mstate = .braking ∧ some (t.ch c).stopCause = met ∧ (t.ch c).bridge = .brake ∧
        (t.ch c).owner = none ∧ (t.ch c).motion.bind (·.braking) = some ⟨.none, true⟩) ∧
    (t.ch c).position = (s.ch c).position ∧ (t.ch c).datum = (s.ch c).datum ∧ othersKept c s t ∧
    { t with channels := s.channels } = s)

/-- The duty in STARTING is the ramp's, at each ms; at the ramp time the channel enters RUNNING at the run duty, or
at the soft-zone duty, with its detector started afresh (R28, R86, R87).
The moment to which the clock goes is the model's choice (log entry 2). -/
def Obligations.RampRaisesTheDuty : Prop :=
  (∀ (s : State) (c : Chan) (r : Ramp), (s.ch c).mstate = .starting → (s.ch c).ramp = some r →
    ∃ t, exec (.rampDutyRecompute c) s = .next t ∧ t.clock = max s.clock ((r.last + 1) * 1000) ∧
      (let elapsed := min (s.ch c).tune.ramp (t.ms - r.start)
      (t.ch c).duty = ((s.ch c).tune.startDuty +
        (((s.ch c).runDuty : Int) - (s.ch c).tune.startDuty) * elapsed / (s.ch c).tune.ramp).toNat ∧
      (t.ch c).ramp = some ⟨r.start, t.ms⟩ ∧
      { t.ch c with duty := (s.ch c).duty, ramp := (s.ch c).ramp } = s.ch c ∧
      othersKept c s t ∧ { t with clock := s.clock, channels := s.channels } = s)) ∧
  (∀ (s : State) (c : Chan) (r : Ramp), s.noneDue → (s.ch c).mstate = .starting → (s.ch c).ramp = some r →
    ∃ t, exec (.rampEnd c) s = .next t ∧
      t.clock = max s.clock ((r.start + (s.ch c).tune.ramp) * 1000) ∧
      (let p := (s.ch c).position.natAbs
      let w := (s.ch c).tune.softZone
      (t.ch c).mstate = .running ∧ (t.ch c).ring = [] ∧ (t.ch c).settled = 0 ∧ (t.ch c).trips = 0 ∧
      (t.ch c).ramp = none ∧
      (t.ch c).duty = (if (s.ch c).datum = .referenced ∧ (s.ch c).drivesTowardZero = true ∧ 0 < w ∧ p ≤ w
        then ((s.ch c).tune.stopDuty +
          (((s.ch c).runDuty : Int) - (s.ch c).tune.stopDuty) * p / w).toNat
        else (s.ch c).runDuty) ∧
      { t.ch c with
        mstate := .starting, ring := (s.ch c).ring, settled := (s.ch c).settled, trips := (s.ch c).trips
        ramp := (s.ch c).ramp, duty := (s.ch c).duty } = s.ch c ∧
      othersKept c s t ∧
      { t with clock := s.clock, channels := s.channels, txQueue := s.txQueue } = s))

/-- A brake with the follow-on NONE expires into IDLE: no record, bridge OFF, duty 0; after a clean close the zones
adapt, and after a CLOSED end without incident the strikes return to 0 (R64, R92, R107, R160).
The moment to which the clock goes is the model's choice (log entry 2). -/
def Obligations.BrakeEndsInIdle : Prop :=
  ∀ (s : State) (c : Chan) (d : Nat) (m : Motion) (b : Brake),
    s.noneDue → (s.ch c).brakeTimer = some d → (s.ch c).mstate = .braking → (s.ch c).bridge = .brake →
    (s.ch c).motion = some m → m.braking = some b → b.followOn = .none → (s.ch c).owner = none →
    ∃ t, exec (.brakeExpiry c) s = .next t ∧ t.clock = max s.clock (d * 1000) ∧
      (t.ch c).mstate = .idle ∧ (t.ch c).motion = none ∧ (t.ch c).bridge = .off ∧ (t.ch c).duty = 0 ∧
      (t.ch c).brakeTimer = none ∧ (t.ch c).owner = none ∧ (t.ch c).stopCause = (s.ch c).stopCause ∧
      (t.ch c).position = (s.ch c).position ∧ (t.ch c).datum = (s.ch c).datum ∧
      (t.ch c).zones = (if (s.ch c).stopCause = .closed ∧ m.incidentFree = true ∧ m.supplyNormal = true ∧
          m.holdFree = true ∧ m.maxRough ≤ 1
        then List.zipWith (adaptZone (s.ch c).tune.ladapt) (s.ch c).zones (s.ch c).accum
        else (s.ch c).zones) ∧
      (t.ch c).strikes = (if (s.ch c).stopCause = .closed ∧ m.incidentFree = true then 0
        else (s.ch c).strikes) ∧
      statusHanded c s t ∧ othersKept c s t ∧
      { t with clock := s.clock, channels := s.channels, txQueue := s.txQueue } = s

/-- A brake with the follow-on REVERSAL expires: from the position of that moment the reversal is formed, away from
0 by Dr and clamped to the axis of a REFERENCED channel; the channel drives, or is PAUSED where the hold line
is ASSERTED (R39, R92, R95, R96). With Dr 0, or a target that is not beyond the position, it enters IDLE without
driving and the record takes the outcome NONE or COMPLETED (R95, R98, R107).
The moment to which the clock goes is the model's choice (log entry 2). -/
def Obligations.BrakeTurnsToReversing : Prop :=
  (∀ (s : State) (c : Chan) (e : Nat) (m : Motion) (ended : Bool),
      let u := s.ch c
      let p := u.position
      let dec := u.tune.axis = .twoSided ∧ p < 0 ∧ 0 < u.tune.lt
      let target : Int := if dec
        then (if u.datum = .referenced then max (p - u.tune.dr) (-(u.tune.lt : Int)) else p - u.tune.dr)
        else (if u.datum = .referenced then min (p + u.tune.dr) u.tune.lo else p + u.tune.dr)
      let d : Dir := if dec then .dec else .inc
      s.noneDue → u.brakeTimer = some e → u.mstate = .braking → u.bridge = .brake →
      u.motion = some m → m.braking = some ⟨.reversal, ended⟩ →
      0 < u.tune.dr → (if dec then target < p else p < target) →
      ∃ t, exec (.brakeExpiry c) s = .next t ∧ t.clock = max s.clock (e * 1000) ∧
        (t.ch c).motion.map (·.goal) = some (some (.target target)) ∧
        (t.ch c).motion.map (·.dir) = some d ∧ (t.ch c).motion.bind (·.braking) = none ∧
        (t.ch c).brakeTimer = none ∧ (t.ch c).stopCause = u.stopCause ∧ (t.ch c).position = p ∧
        (if s.holdLine.level = true then
          (t.ch c).mstate = .paused ∧ (t.ch c).bridge = .off ∧
            (t.ch c).motion.bind (·.pausedFrom) = some .reversal
        else
          (t.ch c).mstate = .reversing ∧ (t.ch c).bridge = d.bridge ∧
            (t.ch c).duty = (if u.datum = .referenced then u.tune.runDuty else u.tune.limpDuty) ∧
            (t.ch c).stallTimer = some (t.ms + u.tune.tss) ∧ (t.ch c).runSince = some t.ms ∧
            (t.ch c).motion.map (·.runTime) = some 0) ∧
        othersKept c s t ∧
        { t with clock := s.clock, channels := s.channels, txQueue := s.txQueue } = s) ∧
  (∀ (s : State) (c : Chan) (e : Nat) (m : Motion) (ended : Bool),
    let u := s.ch c
    let p := u.position
    let dec := u.tune.axis = .twoSided ∧ p < 0 ∧ 0 < u.tune.lt
    let target : Int := if dec
      then (if u.datum = .referenced then max (p - u.tune.dr) (-(u.tune.lt : Int)) else p - u.tune.dr)
      else (if u.datum = .referenced then min (p + u.tune.dr) u.tune.lo else p + u.tune.dr)
    s.noneDue → u.brakeTimer = some e → u.mstate = .braking → u.bridge = .brake →
    u.motion = some m → m.braking = some ⟨.reversal, ended⟩ → m.incidentFree = false →
    u.tune.dr = 0 ∨ ¬(if dec then target < p else p < target) →
    ∃ t, exec (.brakeExpiry c) s = .next t ∧ t.clock = max s.clock (e * 1000) ∧
      (t.ch c).mstate = .idle ∧ (t.ch c).motion = none ∧ (t.ch c).bridge = .off ∧ (t.ch c).duty = 0 ∧
      (t.ch c).brakeTimer = none ∧ (t.ch c).stopCause = u.stopCause ∧ (t.ch c).position = p ∧
      (t.ch c).datum = u.datum ∧ (t.ch c).zones = u.zones ∧ (t.ch c).strikes = u.strikes ∧
      t.incidents = outcomesWritten
        (fun x => if x = c then some (if u.tune.dr = 0 then .none else .completed) else none) s ∧
      statusHanded c s t ∧ othersKept c s t ∧
      { t with clock := s.clock, channels := s.channels, txQueue := s.txQueue, incidents := s.incidents } = s)

/-- A brake expires with its MOTION follow-on, which joins the front of the start queue, or is PAUSED where the hold
line is ASSERTED. A brake of a pre-emption goes on with its record under the follow-on's owner, mode and goal; the
direction is derived again, and where the goal gives none the record and the owner each keep their own (R84, R92,
R93, R112). The follow-on is EXPRESS or HOLD, as every MOTION follow-on is (O6). A brake that ended its motion hands that end
on and creates a new record from the follow-on (R53, R62, R64, R93, R107, R122, R160). With the line ASSERTED and
its limit expired the follow-on ends with HOLD in IDLE, and a HOLD owner receives a latch (R92, R93, R106, R124).
That the new record takes the follow-on's direction also where its goal gives one is the model's choice (log entry 14);
so are the order of the two ends at an expired limit (log entry 13), the moment to which the clock goes (log entry
2) and the field `started` (log entry 7). -/
def Obligations.BrakeTurnsToTheFollowOn : Prop :=
  ∀ (s : State) (c : Chan) (e : Nat) (m : Motion) (slot : Slot) (mode : Mode) (goal : Goal) (d : Dir) (ended : Bool)
    (o : Owner),
    let u := s.ch c
    let adapted := if u.stopCause = .closed ∧ m.incidentFree = true ∧ m.supplyNormal = true ∧
        m.holdFree = true ∧ m.maxRough ≤ 1
      then List.zipWith (adaptZone u.tune.ladapt) u.zones u.accum else u.zones
    let strikes := if u.stopCause = .closed ∧ m.incidentFree = true then 0 else u.strikes
    let pausedFrom (x : Option PausedFrom) := if s.holdLine.level = true then some PausedFrom.motion else x
    s.noneDue → u.brakeTimer = some e → u.mstate = .braking → u.bridge = .brake →
    u.motion = some m → m.braking = some ⟨.motion slot mode goal d, ended⟩ → mode = .express ∨ mode = .hold →
    u.owner = some o →
    ∃ t, exec (.brakeExpiry c) s = .next t ∧ t.clock = max s.clock (e * 1000) ∧
      (t.ch c).bridge = .off ∧ (t.ch c).duty = 0 ∧ (t.ch c).brakeTimer = none ∧
      (t.ch c).position = u.position ∧ (t.ch c).datum = u.datum ∧
      (t.ch c).zones = (if ended = true then adapted else u.zones) ∧
      (t.ch c).strikes = (if ended = true then strikes else u.strikes) ∧
      (if s.holdLine.level = true ∧ s.limitExpired = true then
        (t.ch c).mstate = .idle ∧ (t.ch c).motion = none ∧ (t.ch c).owner = none ∧
          (t.ch c).stopCause = .hold ∧ (t.ch c).holdTimer = none ∧
          (t.ch c).latches = (match o.mode, o.goal with
            | .hold, some (.toEnd x) => u.latches.set o.slot (some ⟨x, t.ms + u.tune.holdTimeout⟩)
            | _, _ => u.latches) ∧
          t.startQueue = s.startQueue
      else
        (t.ch c).stopCause = u.stopCause ∧ (t.ch c).latches = u.latches ∧
        (if s.holdLine.level = true then (t.ch c).mstate = .paused ∧ t.startQueue = s.startQueue
          else (t.ch c).mstate = .queued ∧ t.startQueue = c :: s.startQueue) ∧
        (if ended = true then
          (t.ch c).motion = some ⟨mode, d, some goal, some slot, none, pausedFrom none, 0, true,
            decide (s.band = .normal), true, s.roughness, none, false⟩ ∧
          (t.ch c).owner = some { o with pending := false } ∧
          (t.ch c).accum = List.replicate u.tune.z ⟨0, 0⟩ ∧
          (t.ch c).holdTimer = (if mode = .hold then some (t.ms + u.tune.holdTimeout) else none)
        else
          let derived := goalDir u.tune.axis goal u.position
          (t.ch c).motion = some { m with
            owner := some slot, mode := mode, goal := some goal, braking := none, dir := derived.getD m.dir
            pausedFrom := pausedFrom m.pausedFrom } ∧
          (t.ch c).owner = some { o with pending := false, dir := derived.getD o.dir } ∧
          (t.ch c).accum = u.accum ∧ (t.ch c).holdTimer = u.holdTimer)) ∧
      statusHanded c s t ∧ othersKept c s t ∧
      { t with
        clock := s.clock, channels := s.channels, txQueue := s.txQueue, startQueue := s.startQueue } = s

/-- The run-time limit ends a motion with RUNTIME; a reversal ends with RUNTIME and its record, if still in the
list, takes the outcome CUT and the position (R89, R90, R97, R98, R154).
The moment to which the clock goes is the model's choice (log entry 2). -/
def Obligations.RunTimeLimitEnds : Prop :=
  ∀ (s : State) (c : Chan) (t0 : Nat) (m : Motion),
    s.noneDue → (s.ch c).coherent → (s.ch c).runSince = some t0 → (s.ch c).motion = some m →
    ∃ t, exec (.runTimeLimitExpiry c) s = .next t ∧
      t.clock = max s.clock ((t0 + ((s.ch c).tune.runLimit - m.runTime)) * 1000) ∧
      (t.ch c).mstate = .braking ∧ (t.ch c).bridge = .brake ∧ (t.ch c).stopCause = .runtime ∧
      (t.ch c).owner = none ∧ (t.ch c).runSince = none ∧
      (t.ch c).motion.bind (·.braking) = some ⟨.none, true⟩ ∧
      (t.ch c).brakeTimer = some (t.ms + (s.ch c).tune.brake) ∧
      t.incidents = (if (s.ch c).mstate = .reversing then
          s.incidents.map (fun r => if some r.ref = m.incidentRef ∧ r.outcome = none
            then { r with outcome := some (.cut, (s.ch c).position) } else r)
        else s.incidents) ∧
      othersKept c s t ∧
      { t with
        clock := s.clock, channels := s.channels, txQueue := s.txQueue, incidents := s.incidents } = s

/-- A hold timer that expires stops a motion in STARTING or RUNNING with TIMEOUT; the owner is released and no hold
latch is set (R90, R123, R124).
The moment to which the clock goes is the model's choice (log entry 2). -/
def Obligations.HoldTimerStops : Prop :=
  ∀ (s : State) (c : Chan) (d : Nat) (m : Motion) (o : Owner),
    s.noneDue → (s.ch c).holdTimer = some d → (s.ch c).motion = some m → (s.ch c).owner = some o →
    m.mode = .hold → (s.ch c).drives = true →
    (s.ch c).mstate = .starting ∨ (s.ch c).mstate = .running →
    ∃ t, exec (.holdTimerExpiry c) s = .next t ∧ t.clock = max s.clock (d * 1000) ∧
      (t.ch c).mstate = .braking ∧ (t.ch c).bridge = .brake ∧ (t.ch c).stopCause = .timeout ∧
      (t.ch c).owner = none ∧ (t.ch c).holdTimer = none ∧ (t.ch c).latches = (s.ch c).latches ∧
      (t.ch c).motion.bind (·.braking) = some ⟨.none, true⟩ ∧
      (t.ch c).position = (s.ch c).position ∧ othersKept c s t ∧
      { t with clock := s.clock, channels := s.channels, txQueue := s.txQueue } = s

/-- Timers whose expiry only clears what they guard: a hold latch (R125), the start spacing (R134), the restore
staging buffer (R74), the quiet time of the port (R175) and the strike count of a channel (R160).
The moment to which the clock goes is the model's choice (log entry 2). -/
def Obligations.TimersRunOut : Prop :=
  (∀ (s : State) (c : Chan) (i : Slot) (l : Latch), (s.ch c).latches.get i = some l →
    ∃ t, exec (.latchTimerExpiry c i) s = .next t ∧ t.clock = max s.clock (l.expires * 1000) ∧
      (t.ch c).latches.get i = none ∧ (∀ j, j ≠ i → (t.ch c).latches.get j = (s.ch c).latches.get j) ∧
      { t.ch c with latches := (s.ch c).latches } = s.ch c ∧ othersKept c s t ∧
      { t with clock := s.clock, channels := s.channels } = s) ∧
  (∀ (s : State) (d : Nat), s.spacingTimer = some d →
    ∃ t, exec .startSpacingExpiry s = .next t ∧ t.clock = max s.clock (d * 1000) ∧ t.spacingTimer = none ∧
      { t with clock := s.clock, spacingTimer := s.spacingTimer } = s) ∧
  (∀ (s : State) (l : Staging), s.staging = some l →
    ∃ t, exec .stagingTimerExpiry s = .next t ∧ t.clock = max s.clock (l.expires * 1000) ∧ t.staging = none ∧
      { t with clock := s.clock, staging := s.staging } = s) ∧
  (∀ (s : State) (d : Nat), s.quietTimer = some d →
    ∃ t, exec .busQuietExpiry s = .next t ∧ t.clock = max s.clock (d * 1000) ∧ t.quietTimer = none ∧
      { t with clock := s.clock, quietTimer := s.quietTimer } = s) ∧
  (∀ (s : State) (c : Chan) (d : Nat), s.noneDue → (s.ch c).strikeTimer = some d →
    ∃ t, exec (.strikeWindowExpiry c) s = .next t ∧ t.clock = max s.clock (d * 1000) ∧
      (t.ch c).strikes = 0 ∧ (t.ch c).strikeTimer = none ∧
      ((s.ch c).strikes ≠ 0 → statusHanded c s t) ∧
      { t.ch c with strikes := (s.ch c).strikes, strikeTimer := (s.ch c).strikeTimer } = s.ch c ∧
      othersKept c s t ∧ { t with clock := s.clock, channels := s.channels, txQueue := s.txQueue } = s)

/-! ### Supply and hold (R137 to R147) -/

/-- A battery sample: the last four voltages, V as the floor of their mean, and the band of R138's table; where the
band stays, nothing else changes (R137, R138).
The moment to which the clock goes is the model's choice (log entry 2). -/
def Obligations.BatterySampleIsTaken : Prop :=
  ∀ (s : State) (code : BitVec 10), s.noneDue → s.samples.length ≤ 4 →
    ∃ t, exec (.batterySample code) s = .next t ∧
      t.clock = max s.clock (s.nextSample * 1000) ∧ t.nextSample = s.nextSample + 1 ∧
      t.samples = (if s.samples.length = 4 then s.samples.tail else s.samples) ++ [code.toNat * 25] ∧
      t.volts = t.samples.sum / t.samples.length ∧
      t.band = (match s.band with
        | .normal => if t.volts < 9000 then .low else if 16000 < t.volts then .high else .normal
        | .low => if 16000 < t.volts then .high else if 9300 ≤ t.volts then .normal else .low
        | .high => if t.volts < 9000 then .low else if t.volts ≤ 15700 then .normal else .high) ∧
      (t.band = s.band → channelsKept s t ∧
        { t with
          clock := s.clock, nextSample := s.nextSample, samples := s.samples, volts := s.volts
          channels := s.channels } = s)

/-- A sample that changes the band. Entering HIGH stops every master motion and leaves reversals alone. Entering LOW
stops exactly the closes and tilts: a REFERENCE, and a motion whose goal gives a direction at the position of the
moment and whose direction held is DEC on a ONE-SIDED channel, or on a TWO-SIDED one DEC, or INC below 0.
Entering NORMAL stops nothing (R117, R139, R140, R141). A stopped motion ends with SUPPLY, from the queue in IDLE and
otherwise through BRAKING (R100, R101, R103).
The moment to which the clock goes is the model's choice (log entry 2). -/
def Obligations.BandStopsMotions : Prop :=
  ∀ (s : State) (code : BitVec 10), s.coherent → s.noneDue →
    ∃ t, exec (.batterySample code) s = .next t ∧ (t.band ≠ s.band →
    (∀ c : Chan,
      let u := s.ch c
      let closesOrTilts (o : Owner) : Prop :=
        let d := if u.mstate = .braking then o.dir else (u.motion.map (·.dir)).getD o.dir
        o.mode = .reference ∨
          ((∀ g ∈ o.goal, goalDir u.tune.axis g u.position ≠ none) ∧
            (d = .dec ∨ (u.tune.axis = .twoSided ∧ d = .inc ∧ u.position < 0)))
      let stops := t.band = .high ∧ u.owner ≠ none ∨ t.band = .low ∧ ∃ o ∈ u.owner, closesOrTilts o
      (stops →
        (t.ch c).owner = none ∧ (t.ch c).stopCause = .supply ∧
          (t.ch c).mstate = (if u.mstate = .queued then .idle else .braking)) ∧
      (¬stops → (t.ch c).mstate = u.mstate ∧ (t.ch c).owner = u.owner ∧ (t.ch c).stopCause = u.stopCause ∧
        (t.ch c).bridge = u.bridge) ∧
      (t.ch c).position = u.position) ∧
    t.startQueue = s.startQueue.filter (fun c => (t.ch c).mstate = .queued) ∧
    { t with
      clock := s.clock, channels := s.channels, txQueue := s.txQueue, startQueue := s.startQueue
      nextSample := s.nextSample, samples := s.samples, volts := s.volts, band := s.band } = s)

/-- HOLDIN high for 500 µs is an assertion: every driving channel is PAUSED with its bridge OFF, the others keep
their state, every record loses its hold-free flag, and the hold limit starts (R104, R143, R144).
The command as a run of equal samples, and its clock, are the model's choice (log entry 6). -/
def Obligations.AssertionPausesTheDrives : Prop :=
  ∀ (s : State) (stable : Nat), s.noneDue → s.coherent → s.holdLine = ⟨false, none⟩ → 500 ≤ stable →
    ∃ t, exec (.holdAsserted stable) s = .next t ∧
      t.holdLine = ⟨true, none⟩ ∧ t.clock = max s.clock (s.holdSampled + 1) + 500 ∧
      t.holdLimitTimer = some (t.ms + s.globals.holdLimit) ∧ t.limitExpired = false ∧
      (∀ c : Chan,
        (t.ch c).drives = false ∧ (t.ch c).owner = (s.ch c).owner ∧
        (t.ch c).stopCause = (s.ch c).stopCause ∧ (t.ch c).holdTimer = (s.ch c).holdTimer ∧
        (∀ m ∈ (t.ch c).motion, m.holdFree = false) ∧
        (if (s.ch c).mstate.driving then
          (t.ch c).mstate = .paused ∧ (t.ch c).bridge = .off ∧ (t.ch c).runSince = none ∧
            (t.ch c).motion.bind (·.pausedFrom) = some (match (s.ch c).mstate with
              | .starting => .starting
              | .running => .running
              | _ => .reversing)
        else (t.ch c).mstate = (s.ch c).mstate ∧ (t.ch c).bridge = (s.ch c).bridge)) ∧
      { t with
        clock := s.clock, channels := s.channels, txQueue := s.txQueue, holdLine := s.holdLine
        holdSampled := s.holdSampled, holdLimitTimer := s.holdLimitTimer
        limitExpired := s.limitExpired } = s

/-- HOLDIN low for 500 µs is a release: a paused reversal that has not reached its target drives again at once, with a
new drive phase and run-time 0, and one that has reached it is COMPLETED and brakes; paused master motions go to the
front of the start queue in ascending order, or end with HOLD where auto-resume is off or the limit has expired
(R39, R96, R98, R105, R143, R147, R154).
The command as a run of equal samples, and its clock, are the model's choice (log entry 6). -/
def Obligations.ReleaseResumes : Prop :=
  ∀ (s : State) (stable : Nat), s.noneDue → s.coherent → s.holdLine = ⟨true, none⟩ → 500 ≤ stable →
    ∃ t, exec (.holdReleased stable) s = .next t ∧
      t.holdLine = ⟨false, none⟩ ∧ t.clock = max s.clock (s.holdSampled + 1) + 500 ∧
      t.holdLimitTimer = none ∧ t.limitExpired = false ∧
      (let resumes := s.globals.autoResume && !s.limitExpired
      let reached (u : Channel) (m : Motion) : Bool := match m.goal with
        | some (.target x) =>
          decide ((m.dir = .inc ∧ x ≤ u.position) ∨ (m.dir = .dec ∧ u.position ≤ x))
        | _ => true
      (∀ c : Chan,
        let u := s.ch c
        let duty := if u.datum = .referenced then u.tune.runDuty else u.tune.limpDuty
        (if u.pausedReversal then
          (∀ m ∈ u.motion,
            if reached u m then
              (t.ch c).mstate = .braking ∧ (t.ch c).bridge = .brake ∧ (t.ch c).duty = 0 ∧
                (t.ch c).stallTimer = none ∧ (t.ch c).brakeTimer = some (t.ms + u.tune.brake) ∧
                (t.ch c).motion.bind (·.braking) = some ⟨.none, true⟩
            else
              (t.ch c).mstate = .reversing ∧ (t.ch c).bridge = m.dir.bridge ∧ (t.ch c).duty = duty ∧
                (t.ch c).runDuty = duty ∧ (t.ch c).phase = some ⟨m.dir, t.clock, false⟩ ∧
                (t.ch c).stallTimer = some (t.ms + u.tune.tss) ∧ (t.ch c).runSince = some t.ms ∧
                (t.ch c).motion = some { m with pausedFrom := none, braking := none, runTime := 0 }) ∧
          (t.ch c).stopCause = u.stopCause ∧ (t.ch c).owner = none ∧ (t.ch c).position = u.position ∧
            (t.ch c).datum = u.datum
        else if u.pausedMaster then
          (if resumes then
            (t.ch c).mstate = .queued ∧ (t.ch c).owner = u.owner ∧
              (t.ch c).motion = u.motion.map fun m => { m with pausedFrom := none }
          else
            (t.ch c).mstate = .idle ∧ (t.ch c).stopCause = .hold ∧ (t.ch c).owner = none ∧
              (t.ch c).motion = none ∧ (t.ch c).bridge = .off)
        else t.ch c = u)) ∧
      t.incidents = outcomesWritten (fun c =>
        if (s.ch c).pausedReversal ∧ (s.ch c).motion.any (reached (s.ch c)) then some .completed else none) s ∧
      t.startQueue =
        Chan.all.filter (fun c => resumes && (s.ch c).pausedMaster) ++ s.startQueue) ∧
      { t with
        clock := s.clock, channels := s.channels, txQueue := s.txQueue, startQueue := s.startQueue
        incidents := s.incidents, holdLine := s.holdLine, holdSampled := s.holdSampled
        holdLimitTimer := s.holdLimitTimer, limitExpired := s.limitExpired } = s

/-- The hold limit expires: paused master motions and queued ones end with HOLD, everything else stays as it is, and
the start queue is empty (R106, R146).
The moment to which the clock goes is the model's choice (log entry 2). -/
def Obligations.HoldLimitEnds : Prop :=
  ∀ (s : State) (d : Nat), s.noneDue → s.coherent → s.holdLimitTimer = some d →
    ∃ t, exec .holdLimitExpiry s = .next t ∧ t.clock = max s.clock (d * 1000) ∧
      t.limitExpired = true ∧ t.holdLimitTimer = none ∧ t.startQueue = [] ∧
      (∀ c : Chan,
        if (s.ch c).mstate = .queued ∨ (s.ch c).pausedMaster = true then
          (t.ch c).mstate = .idle ∧ (t.ch c).stopCause = .hold ∧ (t.ch c).owner = none ∧
            (t.ch c).motion = none ∧ (t.ch c).bridge = .off
        else t.ch c = s.ch c) ∧
      { t with
        clock := s.clock, channels := s.channels, txQueue := s.txQueue, startQueue := s.startQueue
        limitExpired := s.limitExpired, holdLimitTimer := s.holdLimitTimer } = s

/-! ### The bus port (R164 to R178) -/

/-- A frame is tagged with the first enabled slot whose identifier it equals at every position where the slot's mask
holds 1 (R166). -/
def Obligations.FirstMatchingSlotTags : Prop :=
  ∀ (slots : PerSlot SlotEntry) (id : Ident) (i : Slot),
    let hits (j : Slot) : Prop := (slots.get j).enabled = true ∧
      ∀ k < 11, (slots.get j).mask.getLsbD k = true → id.getLsbD k = (slots.get j).ident.getLsbD k
    (tagSlot slots id = some i ↔ hits i ∧ ∀ j, j.toNat < i.toNat → ¬hits j) ∧
    (tagSlot slots id = none ↔ ∀ j, ¬hits j)

/-- A delivered frame goes to its FIFO: a STOP that passes its screen joins the urgent FIFO or is merged into its newest
entry; any other frame joins the normal FIFO. A frame that is not delivered, that no slot matches, or that is a
STOP too short or without the right changes nothing; a frame that finds the normal FIFO full is dropped and
answered FULL (R126, R164, R166, R167, R168). -/
def Obligations.ReceivedFramesArePlaced : Prop :=
  (∀ (s : State) (f : BusFrame) (id : Ident) (i : Slot),
     f.ident = .standard id → f.remote = false → f.error = false → f.data.length ≤ 8 →
     tagSlot s.slots id = some i →
     (f.data.head? ≠ some 3#8 → s.normal.length < 8 →
       ∃ t, exec (.frameReceived f) s = .next t ∧ t.normal = s.normal ++ [⟨i, f.data⟩] ∧
         { t with normal := s.normal } = s) ∧
     (∀ mask more, f.data = 3#8 :: mask :: more → (s.slots.get i).holds .stop = true → s.urgent.length < 4 →
       ∃ t, exec (.frameReceived f) s = .next t ∧ t.urgent = s.urgent ++ [⟨i, mask⟩] ∧
         { t with urgent := s.urgent } = s) ∧
     (∀ mask more front newest, f.data = 3#8 :: mask :: more → (s.slots.get i).holds .stop = true →
       s.urgent = front ++ [newest] → front.length = 3 →
       ∃ t, exec (.frameReceived f) s = .next t ∧
         t.urgent = front ++ [⟨newest.slot, newest.mask ||| mask⟩] ∧ { t with urgent := s.urgent } = s)) ∧
  (∀ (s : State) (f : BusFrame),
     ((∃ id, f.ident = .extended id) ∨ f.remote = true ∨ f.error = true →
       exec (.frameReceived f) s = .next s) ∧
     (∀ id, f.ident = .standard id → tagSlot s.slots id = none → exec (.frameReceived f) s = .next s) ∧
     (∀ id i, f.ident = .standard id → tagSlot s.slots id = some i → f.data.head? = some 3#8 →
       f.data.length < 2 ∨ (s.slots.get i).holds .stop = false → exec (.frameReceived f) s = .next s) ∧
     (∀ id i, f.ident = .standard id → f.remote = false → f.error = false → f.data.length ≤ 8 →
       tagSlot s.slots id = some i → f.data.head? ≠ some 3#8 → 8 ≤ s.normal.length →
       ∃ t, exec (.frameReceived f) s = .next t ∧
         answered s t i (byteAt f.data 0) .full [if f.data = [] then 1 else 0] ∧
         { t with txQueue := s.txQueue, readout := s.readout } = s))

/-- An attempt to send: the head is offered when no frame is in transmission and the port is not quiet; a sent frame
leaves and clears the error count; a lost arbitration changes nothing but the attempt; an error drops the frame
and raises the count, and the sixteenth in a row makes the port quiet for 100 ms (R174, R175). -/
def Obligations.AttemptsEnd : Prop :=
  (∀ (s : State) (e : TxEntry) (q : List TxEntry), s.txQueue = e :: q → (∀ x ∈ e :: q, x.onBus = none) →
    s.quietTimer = none →
    ∃ t, exec .txOffer s = .next t ∧ t.txQueue = ⟨e.frame, some e.frame, false⟩ :: q ∧
      { t with txQueue := s.txQueue } = s) ∧
  (∀ (s : State) (e : TxEntry) (x y : List TxEntry) (b : Frame), s.txQueue = x ++ e :: y →
    e.onBus = some b → (∀ z ∈ x ++ y, z.onBus = none ∧ z.renewed = false) →
    let engine := s.readout.bind fun r =>
      if e.frame.tag = .readout ∧ e.renewed = false ∧ r.snap.frames ≤ r.handed then none else some r
    (∃ t, exec .txSent s = .next t ∧ t.txErrors = 0 ∧ t.readout = engine ∧
      t.txQueue = (if e.renewed then x ++ ⟨e.frame, none, false⟩ :: y else x ++ y) ∧
      { t with txQueue := s.txQueue, txErrors := s.txErrors, readout := s.readout } = s) ∧
    (∃ t, exec .txLostArbitration s = .next t ∧ t.txQueue = x ++ ⟨e.frame, none, false⟩ :: y ∧
      { t with txQueue := s.txQueue } = s) ∧
    (∃ t, exec .txError s = .next t ∧ t.readout = engine ∧
      t.txQueue = (if e.renewed then x ++ ⟨e.frame, none, false⟩ :: y else x ++ y) ∧
      (if s.txErrors + 1 < 16 then t.txErrors = s.txErrors + 1 ∧ t.quietTimer = s.quietTimer
        else t.txErrors = 0 ∧ t.quietTimer = some (s.ms + 100)) ∧
      { t with
        txQueue := s.txQueue, txErrors := s.txErrors, quietTimer := s.quietTimer
        readout := s.readout } = s))

/-- A frame of the INCIDENT or ANSWER class handed to a full queue (ANSWER and INCIDENT_DATA are one class): it evicts the
newest frame of the lowest class below its own, so a READOUT frame, else the newest STATUS, and an INCIDENT else the
newest of the ANSWER class, never the frame in transmission; it is dropped where only its own class and higher stand
(R172, R173). -/
def Obligations.FullQueueEvicts : Prop :=
  ∀ (s : State) (f : Frame), s.queueOrdered → s.txQueue.length = 12 →
    f.tag = .answer ∨ f.tag = .incident ∨ f.tag = .incidentData →
    let class_ (x : FrameTag) : Nat := match x with
      | .incident => 3 | .answer => 2 | .incidentData => 2 | .status _ => 1 | .readout => 0
    let gives (e : TxEntry) : Prop := e.onBus = none ∧ class_ e.frame.tag < class_ f.tag
    ((∀ e ∈ s.txQueue, ¬gives e) → handFrame f s = s) ∧
    (∀ x e y, s.txQueue = x ++ e :: y → gives e → (∀ z ∈ y, ¬gives z) →
      (handFrame f s).txQueue = txInsert f (x ++ y) ∧
      (handFrame f s).txQueue.length = 12 ∧
      ⟨f, none, false⟩ ∈ (handFrame f s).txQueue)

/-- The status period hands the STATUS of every channel and restarts with the period as it is tuned (R177). A QUERY
hands the STATUS of its channel, changes nothing else and is not answered (R131, R171). A STATUS frame carries the
state of its channel in the bits of R194 with the codes of R196 (R176, R178).
The moment to which the clock goes is the model's choice (log entry 2). -/
def Obligations.StatusIsHanded : Prop :=
  (∀ s : State, s.noneDue →
     ∃ t, exec .statusPeriodExpiry s = .next t ∧ t.clock = max s.clock (s.statusTimer * 1000) ∧
       t.statusTimer = t.ms + s.globals.statusPeriod ∧ channelsKept s t ∧
       (∀ c, statusHanded c s t) ∧
       (s.txQueue = [] → t.txQueue = Chan.all.map fun c => ⟨statusFrame t c, none, false⟩) ∧
       { t with
         clock := s.clock, channels := s.channels, statusTimer := s.statusTimer
         txQueue := s.txQueue } = s) ∧
  (∀ (s : State) (slot : Slot) (b : List Byte) (rest : List Request) (c : Chan),
     s.noneDue → s.takes .query slot b rest → Chan.ofNat? (byteAt b 1) = some c →
     ∃ t, exec .query s = .next t ∧ t.normal = rest ∧ statusHanded c s t ∧
       (∀ e ∈ t.txQueue, e.frame.tag = .answer → e ∈ s.txQueue) ∧ channelsKept s t ∧
       { t with normal := s.normal, channels := s.channels, txQueue := s.txQueue } = s) ∧
  (∀ (s : State) (c : Chan), (s.ch c).inBounds → s.volts ≤ 25575 →
     let u := s.ch c
     let f := statusFrame s c
     f.tag = .status c ∧ f.ident = BitVec.ofNat 11 (s.globals.statusBase + c.toNat) ∧ f.data.length = 8 ∧
     bigEndian f.data =
       (match u.mstate with
         | .idle => 0 | .queued => 1 | .starting => 2 | .running => 3 | .braking => 4 | .reversing => 5
         | .paused => 6) * 2 ^ 61 +
       (match u.motion.map (·.mode) with
         | none => 0 | some .express => 1 | some .hold => 2 | some .reference => 3 | some .reversal => 4) * 2 ^ 58 +
       (match u.datum with | .unreferenced => 0 | .seeking => 1 | .referenced => 2) * 2 ^ 56 +
       u.stopCause.code * 2 ^ 52 +
       (match u.owner with
         | none => 0
         | some o => if o.pending then o.slot.toNat + 5 else o.slot.toNat + 1) * 2 ^ 48 +
       twosComplement 15 u.position * 2 ^ 33 + u.strikes * 2 ^ 31 +
       (if u.summary.step then 2 ^ 30 else 0) + (if u.summary.reverse then 2 ^ 29 else 0) +
       (if u.summary.speed then 2 ^ 28 else 0) + u.lastF * 2 ^ 18 + u.lastT * 2 ^ 8 +
       (match s.band with | .normal => 0 | .low => 1 | .high => 2) * 2 ^ 6 + s.volts / 500) ∧
  ([.none, .target, .limit, .closed, .stop, .timeout, .runtime, .pinch, .stall, .edge, .supply, .hold, .hall,
     .overtravel, .lockout, .referenced].map StopCause.code = List.range 16)

/-! ### The ownership unit's requests (R113 to R131) -/

/-- The goal of a MOVE TARGET: clamped to −Lt to Lo; in EXPRESS a clamped 0 is the goal CLOSE; in HOLD the end that
lies in the direction of the clamped target, and where it gives no direction the target itself (R84, R116). The
direction each goal gives from a position (R84), when a bridge drives toward 0 (R40), and the class of a request
(R117).
That a HOLD TARGET of 0 at 0 is kept as the target 0 on a TWO-SIDED channel, and takes the end CLOSE on a ONE-SIDED
one although it equals the position, is the model's choice (log entry 15). -/
def Obligations.TargetGoalIsFormed : Prop :=
  (∀ (c : Channel) (x : Int),
      let lt : Int := if c.tune.axis = .oneSided then 0 else c.tune.lt
      let t := max (-lt) (min x c.tune.lo)
      let p := c.position
      c.goalOf .express .target x = (if t = 0 then .toEnd .toClose else .target t) ∧
      (c.tune.axis = .oneSided → c.goalOf .hold .target x =
        (if t = 0 ∨ t < p then .toEnd .toClose else if p < t then .toEnd .toOpen else .target t)) ∧
      (c.tune.axis = .twoSided → c.goalOf .hold .target x =
        (if p < t then (if 0 ≤ p then .toEnd .toOpen else .toEnd .toClose)
        else if t < p then (if 0 < p then .toEnd .toClose else .toEnd .toTilt)
        else .target t)) ∧
      c.clamps .express .target x = decide (t ≠ x) ∧ c.clamps .hold .target x = false) ∧
  (∀ (axis : Axis) (p x : Int),
    goalDir axis (.toEnd .toOpen) p = some .inc ∧ goalDir axis (.toEnd .toTilt) p = some .dec ∧
    goalDir .oneSided (.toEnd .toClose) p = some .dec ∧
    goalDir .twoSided (.toEnd .toClose) p = (if 0 < p then some .dec else if p < 0 then some .inc else none) ∧
    goalDir axis (.target 0) p = goalDir axis (.toEnd .toClose) p ∧
    (x ≠ 0 → goalDir axis (.target x) p = (if p < x then some .inc else if x < p then some .dec else none))) ∧
  (∀ c : Channel, c.drivesTowardZero = true ↔
    (c.tune.axis = .oneSided ∧ c.bridge = .driveDec) ∨
      (c.tune.axis = .twoSided ∧
        ((c.bridge = .driveDec ∧ 0 < c.position) ∨ (c.bridge = .driveInc ∧ c.position < 0)))) ∧
  (∀ (axis : Axis) (d : Dir) (od : Option Dir) (p : Int),
    let close := (axis = .oneSided ∧ d = .dec) ∨ (axis = .twoSided ∧ ((d = .dec ∧ 0 < p) ∨ (d = .inc ∧ p < 0)))
    let tilt := axis = .twoSided ∧ d = .dec ∧ p ≤ 0
    classify axis true od p = .close ∧ classify axis false none p = .still ∧
    (classify axis false (some d) p = .close ↔ close) ∧ (classify axis false (some d) p = .tilt ↔ tilt) ∧
    (classify axis false (some d) p = .opening ↔ ¬close ∧ ¬tilt))

/-- A MOVE with a direction on an IDLE channel that passes every check is granted: the motion record is created, the
sender owns it, and the channel joins the tail of the start queue (R80, R111, R112, R118, R120, R122, R132). -/
def Obligations.MoveIsGrantedFromIdle : Prop :=
  ∀ (s : State) (slot : Slot) (b : List Byte) (rest : List Request) (c : Chan) (mode : Mode) (k : GoalKind)
    (d : Dir),
    let u := s.ch c
    let goal := u.goalOf mode k (signedAt b 4)
    let cls := classify u.tune.axis false (some d) u.position
    s.noneDue → s.takes .move slot b rest → s.partState = .run →
    Chan.ofNat? (byteAt b 1) = some c → moveModeOf (byteAt b 2) = some mode →
    GoalKind.ofCode (byteAt b 3) = some k →
    u.tune.enable = true → (k = .toEnd .toTilt → u.tune.axis = .twoSided) →
    u.latches.get slot = none → u.allowed.get slot = true →
    (mode = .hold ∨ u.datum = .referenced) →
    s.band ≠ .high → (s.band = .low → cls = .opening) →
    (mode = .hold ∨ cls ≠ .close ∨ u.strikes ≠ 3) →
    u.mstate = .idle → u.motion = none → u.owner = none →
    goalDir u.tune.axis goal u.position = some d →
    ∃ t, exec .move s = .next t ∧ t.normal = rest ∧
      t.startQueue = s.startQueue ++ [c] ∧ (t.ch c).mstate = .queued ∧
      (t.ch c).owner = some ⟨slot, false, mode, some goal, d⟩ ∧
      (t.ch c).motion = some (newMotion slot mode (some goal) d s.roughness (decide (s.band = .normal))) ∧
      (t.ch c).holdTimer = (if mode = .hold then some (s.ms + u.tune.holdTimeout) else none) ∧
      (t.ch c).accum = List.replicate u.tune.z ⟨0, 0⟩ ∧
      { t.ch c with
        mstate := u.mstate, owner := u.owner, motion := u.motion, holdTimer := u.holdTimer
        accum := u.accum } = u ∧
      answered s t slot 1 (if u.clamps mode k (signedAt b 4) then .clamped else .accepted) [byteAt b 1] ∧
      statusHanded c s t ∧ othersKept c s t ∧
      { t with
        normal := s.normal, channels := s.channels, startQueue := s.startQueue, txQueue := s.txQueue
        readout := s.readout } = s

/-- The checks of a MOVE in their order; the first that fails gives the outcome and nothing is changed (R118; check 6
does not arise where the sender's slot holds no latch on the channel). -/
def Obligations.MoveChecksAreOrdered : Prop :=
  ∀ (s : State) (slot : Slot) (b : List Byte) (rest : List Request) (c : Chan) (mode : Mode) (k : GoalKind)
    (reply : Reply),
    let u := s.ch c
    let g := u.wish slot mode k (signedAt b 4)
    let cls := classify u.tune.axis false g.dir u.position
    let fails : List (Bool × Reply) := [
      (!u.tune.enable, .disabled),
      (decide (k = .toEnd .toTilt ∧ u.tune.axis = .oneSided), .malformed),
      (!u.allowed.get slot, .locked),
      (decide (u.mstate = .reversing ∨
        (u.mstate = .braking ∧ ∃ e, u.motion.bind (·.braking) = some ⟨.reversal, e⟩) ∨
        (u.mstate = .paused ∧ (u.motion.bind (·.pausedFrom) = some .reversing ∨
          u.motion.bind (·.pausedFrom) = some .reversal))), .reversing),
      (decide (mode = .express ∧ u.datum ≠ .referenced), .unref),
      (decide (s.band = .high ∨ (s.band = .low ∧ (cls = .close ∨ cls = .tilt))), .supply),
      (decide (mode = .express ∧ cls = .close ∧ u.strikes = 3), .strikes),
      (u.owner.any fun o =>
        decide (o.slot ≠ slot ∧ (s.slots.get slot).rank ≤ (s.slots.get o.slot).rank), .busy)]
    s.noneDue → s.takes .move slot b rest → s.partState = .run →
    Chan.ofNat? (byteAt b 1) = some c → moveModeOf (byteAt b 2) = some mode →
    GoalKind.ofCode (byteAt b 3) = some k → u.latches.get slot = none →
    (fails.find? (·.1)).map (·.2) = some reply →
    ∃ t, exec .move s = .next t ∧ t.normal = rest ∧ answered s t slot 1 reply [byteAt b 1] ∧
      channelsKept s t ∧
      { t with
        normal := s.normal, channels := s.channels, txQueue := s.txQueue, readout := s.readout } = s

/-- A HOLD MOVE from the owner of a HOLD motion in the owned direction is a refresh: the hold timer restarts, nothing
else changes and nothing is answered (R119, R122, R171). A HOLD MOVE toward the end its slot's latch holds is
taken without an answer, and the latch's timer restarts; a MOVE that does not match removes the latch (R125). -/
def Obligations.HoldToRunIsSilent : Prop :=
  (∀ (s : State) (slot : Slot) (b : List Byte) (rest : List Request) (c : Chan) (k : GoalKind) (o : Owner),
     let u := s.ch c
     let g := u.wish slot .hold k (signedAt b 4)
     s.noneDue → s.takes .move slot b rest → s.partState = .run →
     Chan.ofNat? (byteAt b 1) = some c → moveModeOf (byteAt b 2) = some .hold →
     GoalKind.ofCode (byteAt b 3) = some k →
     u.refusesKind k = none → u.latches.get slot = none → s.refuses c g = none →
     u.owner = some o → o.slot = slot → o.mode = .hold → g.dir = some o.dir →
     ∃ t, exec .move s = .next t ∧ t.normal = rest ∧
       (t.ch c).holdTimer = some (s.ms + u.tune.holdTimeout) ∧
       { t.ch c with holdTimer := u.holdTimer } = u ∧ othersKept c s t ∧
       { t with normal := s.normal, channels := s.channels } = s) ∧
  (∀ (s : State) (slot : Slot) (b : List Byte) (rest : List Request) (c : Chan) (k : GoalKind) (l : Latch),
     let u := s.ch c
     s.noneDue → s.takes .move slot b rest → s.partState = .run →
     Chan.ofNat? (byteAt b 1) = some c → moveModeOf (byteAt b 2) = some .hold →
     GoalKind.ofCode (byteAt b 3) = some k → u.refusesKind k = none → u.latches.get slot = some l →
     (u.goalOf .hold k (signedAt b 4) = .toEnd l.goal →
       ∃ t, exec .move s = .next t ∧ t.normal = rest ∧
         (t.ch c).latches.get slot = some ⟨l.goal, s.ms + u.tune.holdTimeout⟩ ∧
         (∀ j, j ≠ slot → (t.ch c).latches.get j = u.latches.get j) ∧
         { t.ch c with latches := u.latches } = u ∧ othersKept c s t ∧
         { t with normal := s.normal, channels := s.channels } = s) ∧
     (u.goalOf .hold k (signedAt b 4) ≠ .toEnd l.goal → u.allowed.get slot = false →
       ∃ t, exec .move s = .next t ∧ (t.ch c).latches.get slot = none ∧
         (∀ j, j ≠ slot → (t.ch c).latches.get j = u.latches.get j) ∧
         answered s t slot 1 .locked [byteAt b 1] ∧ { t.ch c with latches := u.latches } = u ∧
         othersKept c s t ∧
         { t with normal := s.normal, channels := s.channels, txQueue := s.txQueue, readout := s.readout } = s))

/-- A MOVE granted over the motion of an owner of lower rank, or over another motion of the sender (R119). In STARTING,
RUNNING and PAUSED with the opposite direction it brakes the channel with a MOTION follow-on, the sender's
ownership pending, and the last stop cause stays; with the same direction or a still goal it replaces owner, mode
and goal in flight, and ends the motion at once where the new goal is reached. In QUEUED it replaces them and keeps
the place; in BRAKING it replaces the MOTION follow-on, or sets one where the follow-on is NONE (R84, R102, R112, R120,
R121). Run-time returns to 0 and a HOLD motion that is pre-empted leaves a latch (R89, R122, R124). A still MOVE in
IDLE or BRAKING with NONE changes nothing, and a MOVE that repeats the sender's motion nothing but the hold timer
(R120).
That a repeated MOVE is always answered ACCEPTED (log entry 11), that the end conditions are checked in PAUSED too (log
entry 12), that a HOLD TARGET kept as the target 0 and HOLD CLOSE are different goals here (log entry 15), and that
AT_TARGET comes before CLAMPED (log entry 28) is the model's choice. -/
def Obligations.MovesReplaceTheMotion : Prop :=
  (∀ (s : State) (slot : Slot) (b : List Byte) (rest : List Request) (c : Chan) (mode : Mode) (k : GoalKind) (g : Grant)
    (m : Motion) (o : Owner) (d : Dir),
    let u := s.ch c
    s.moves slot b rest c mode k g → u.coherent → u.motion = some m → u.owner = some o → s.takesOver g o →
    u.mstate = .starting ∨ u.mstate = .running ∨ u.pausedMaster = true → g.dir = some d → d ≠ m.dir →
    ∃ t, exec .move s = .next t ∧ t.normal = rest ∧
      (t.ch c).mstate = .braking ∧ (t.ch c).bridge = .brake ∧ (t.ch c).duty = 0 ∧
      (t.ch c).owner = some ⟨slot, true, mode, some g.goal, d⟩ ∧
      (t.ch c).motion = some { m with
        braking := some ⟨.motion slot mode g.goal d, false⟩, pausedFrom := none, runTime := 0 } ∧
      (t.ch c).brakeTimer = some (s.ms + u.tune.brake) ∧ (t.ch c).stopCause = u.stopCause ∧
      grantLeaves s g o u (t.ch c) ∧ (t.ch c).position = u.position ∧ (t.ch c).strikes = u.strikes ∧
      (t.ch c).zones = u.zones ∧ (t.ch c).accum = u.accum ∧ (t.ch c).allowed = u.allowed ∧
      (t.ch c).tune = u.tune ∧ grantAnswered s t c mode k b g ∧ statusHanded c s t ∧ othersKept c s t ∧
      { t with normal := s.normal, channels := s.channels, txQueue := s.txQueue, readout := s.readout } = s) ∧
  (∀ (s : State) (slot : Slot) (b : List Byte) (rest : List Request) (c : Chan) (mode : Mode) (k : GoalKind) (g : Grant)
    (m : Motion) (o : Owner),
    let u := s.ch c
    let datum : Datum := if o.mode = .reference ∧ u.datum = .seeking then .unreferenced else u.datum
    let cause := endCause u.tune datum g.goal m.dir u.position
    s.moves slot b rest c mode k g → u.coherent → u.stripTrips = false → u.motion = some m → u.owner = some o →
    s.takesOver g o → u.mstate = .starting ∨ u.mstate = .running ∨ u.pausedMaster = true →
    g.dir = none ∨ g.dir = some m.dir →
    ∃ t, exec .move s = .next t ∧ t.normal = rest ∧
      (if cause = none then
        (t.ch c).owner = some ⟨slot, false, mode, some g.goal, m.dir⟩ ∧
        (t.ch c).motion = some { m with owner := some slot, mode := mode, goal := some g.goal, runTime := 0 } ∧
        (t.ch c).runSince = u.runSince.map (fun _ => s.ms) ∧ grantLeaves s g o u (t.ch c) ∧
        { t.ch c with
          owner := u.owner, motion := u.motion, runSince := u.runSince, latches := u.latches, datum := u.datum
          holdTimer := u.holdTimer, trips := u.trips } = u
      else
        (t.ch c).mstate = .braking ∧ (t.ch c).bridge = .brake ∧ some (t.ch c).stopCause = cause ∧
          (t.ch c).owner = none ∧ (t.ch c).holdTimer = none ∧
          (t.ch c).motion.bind (·.braking) = some ⟨.none, true⟩ ∧
          (t.ch c).brakeTimer = some (s.ms + u.tune.brake) ∧ (t.ch c).datum = datum ∧
          (t.ch c).position = u.position ∧ (t.ch c).zones = u.zones ∧ statusHanded c s t) ∧
      grantAnswered s t c mode k b g ∧ othersKept c s t ∧
      { t with normal := s.normal, channels := s.channels, txQueue := s.txQueue, readout := s.readout } = s) ∧
  (∀ (s : State) (slot : Slot) (b : List Byte) (rest : List Request) (c : Chan) (mode : Mode) (k : GoalKind) (g : Grant)
    (m : Motion) (o : Owner),
    let u := s.ch c
    s.moves slot b rest c mode k g → u.motion = some m → u.owner = some o → s.takesOver g o → u.mstate = .queued →
    ∃ t, exec .move s = .next t ∧ t.normal = rest ∧
      (t.ch c).owner = some ⟨slot, false, mode, some g.goal, g.dir.getD o.dir⟩ ∧
      (t.ch c).motion = some { m with
        owner := some slot, mode := mode, goal := some g.goal, dir := g.dir.getD m.dir, runTime := 0 } ∧
      (t.ch c).runSince = u.runSince.map (fun _ => s.ms) ∧ grantLeaves s g o u (t.ch c) ∧
      { t.ch c with
        owner := u.owner, motion := u.motion, runSince := u.runSince, latches := u.latches, datum := u.datum
        holdTimer := u.holdTimer, trips := u.trips } = u ∧
      (o.slot ≠ slot → statusHanded c s t) ∧ grantAnswered s t c mode k b g ∧ othersKept c s t ∧
      { t with normal := s.normal, channels := s.channels, txQueue := s.txQueue, readout := s.readout } = s) ∧
  (∀ (s : State) (slot : Slot) (b : List Byte) (rest : List Request) (c : Chan) (mode : Mode) (k : GoalKind) (g : Grant)
    (m : Motion) (o : Owner) (slot' : Slot) (mode' : Mode) (goal' : Goal) (d' : Dir) (ended : Bool),
    let u := s.ch c
    let d := g.dir.getD d'
    s.moves slot b rest c mode k g → u.motion = some m → u.owner = some o → s.takesOver g o → u.mstate = .braking →
    m.braking = some ⟨.motion slot' mode' goal' d', ended⟩ →
    ∃ t, exec .move s = .next t ∧ t.normal = rest ∧
      (t.ch c).owner = some ⟨slot, true, mode, some g.goal, d⟩ ∧
      (t.ch c).motion = some { m with braking := some ⟨.motion slot mode g.goal d, ended⟩, runTime := 0 } ∧
      grantLeaves s g o u (t.ch c) ∧
      { t.ch c with
        owner := u.owner, motion := u.motion, latches := u.latches, datum := u.datum, holdTimer := u.holdTimer
        trips := u.trips } = u ∧
      statusHanded c s t ∧ grantAnswered s t c mode k b g ∧ othersKept c s t ∧
      { t with normal := s.normal, channels := s.channels, txQueue := s.txQueue, readout := s.readout } = s) ∧
  (∀ (s : State) (slot : Slot) (b : List Byte) (rest : List Request) (c : Chan) (mode : Mode) (k : GoalKind) (g : Grant),
    let u := s.ch c
    s.moves slot b rest c mode k g → u.owner = none →
    (∀ (m : Motion) (ended : Bool) (d : Dir), u.mstate = .braking → u.motion = some m →
      m.braking = some ⟨.none, ended⟩ → g.dir = some d →
      ∃ t, exec .move s = .next t ∧ t.normal = rest ∧
        (t.ch c).owner = some ⟨slot, true, mode, some g.goal, d⟩ ∧
        (t.ch c).motion = some { m with braking := some ⟨.motion slot mode g.goal d, ended⟩, runTime := 0 } ∧
        (t.ch c).holdTimer = (if mode = .hold then some (s.ms + u.tune.holdTimeout) else none) ∧
        { t.ch c with owner := u.owner, motion := u.motion, holdTimer := u.holdTimer } = u ∧
        statusHanded c s t ∧ grantAnswered s t c mode k b g ∧ othersKept c s t ∧
        { t with normal := s.normal, channels := s.channels, txQueue := s.txQueue, readout := s.readout } = s) ∧
    (u.mstate = .idle ∨
        (u.mstate = .braking ∧ (u.motion.bind (·.braking)).map (·.followOn) = some .none) → g.dir = none →
      ∃ t, exec .move s = .next t ∧ t.normal = rest ∧ channelsKept s t ∧
        answered s t slot 1 .atTarget [byteAt b 1] ∧
        { t with normal := s.normal, channels := s.channels, txQueue := s.txQueue, readout := s.readout } = s)) ∧
  (∀ (s : State) (slot : Slot) (b : List Byte) (rest : List Request) (c : Chan) (mode : Mode) (k : GoalKind) (g : Grant)
    (o : Owner),
    let u := s.ch c
    s.moves slot b rest c mode k g → u.owner = some o → o.slot = slot → o.mode = mode → o.goal = some g.goal →
    ¬(mode = .hold ∧ g.dir = some o.dir) →
    ∃ t, exec .move s = .next t ∧ t.normal = rest ∧
      (t.ch c).holdTimer = (if mode = .hold then some (s.ms + u.tune.holdTimeout) else u.holdTimer) ∧
      { t.ch c with holdTimer := u.holdTimer } = u ∧ answered s t slot 1 .accepted [byteAt b 1] ∧
      othersKept c s t ∧
      { t with normal := s.normal, channels := s.channels, txQueue := s.txQueue, readout := s.readout } = s)

/-- A GROUP toward an end, on IDLE channels that pass the checks of an EXPRESS MOVE, is granted for each masked
channel: they join the tail of the start queue in ascending order and the answer carries the granted mask (R128,
R129). -/
def Obligations.GroupIsGrantedFromIdle : Prop :=
  ∀ (s : State) (slot : Slot) (b : List Byte) (rest : List Request) (e : GoalEnd),
    s.noneDue → s.takes .group slot b rest → s.partState = .run → groupGoalOf (byteAt b 2) = some e →
    (∀ c, inMask (byteAt b 1) c = true →
      (s.ch c).mstate = .idle ∧ (s.ch c).motion = none ∧ (s.ch c).owner = none ∧
        (s.ch c).refusesKind (.toEnd e) = none ∧
        s.refuses c ((s.ch c).wish slot .express (.toEnd e) 0) = none ∧
        (goalDir (s.ch c).tune.axis (.toEnd e) (s.ch c).position).isSome = true) →
    ∃ t, exec .group s = .next t ∧ t.normal = rest ∧
      t.startQueue = s.startQueue ++ Chan.all.filter (inMask (byteAt b 1)) ∧
      (∀ c, if inMask (byteAt b 1) c then
          (t.ch c).mstate = .queued ∧
            (t.ch c).motion.map (fun m => (m.mode, m.goal)) = some (.express, some (.toEnd e)) ∧
            (t.ch c).owner.map (fun o => (o.slot, o.pending)) = some (slot, false) ∧
            (t.ch c).latches = (s.ch c).latches
        else t.ch c = s.ch c) ∧
      answered s t slot 2 .accepted [maskOf (inMask (byteAt b 1)), 0] ∧
      { t with
        normal := s.normal, channels := s.channels, startQueue := s.startQueue, txQueue := s.txQueue
        readout := s.readout } = s

/-- A REFERENCE on an IDLE channel that passes its checks: a REFERENCE record, DEC and without a goal, joins the tail
of the start queue; the datum waits for the start (R19, R130). -/
def Obligations.ReferenceIsGranted : Prop :=
  ∀ (s : State) (slot : Slot) (b : List Byte) (rest : List Request) (c : Chan),
    let u := s.ch c
    s.noneDue → s.takes .reference slot b rest → s.partState = .run →
    Chan.ofNat? (byteAt b 1) = some c → u.tune.enable = true → u.allowed.get slot = true →
    u.mstate = .idle → s.band = .normal →
    ∃ t, exec .reference s = .next t ∧ t.normal = rest ∧ t.startQueue = s.startQueue ++ [c] ∧
      (t.ch c).mstate = .queued ∧ (t.ch c).datum = u.datum ∧
      (t.ch c).owner = some ⟨slot, false, .reference, none, .dec⟩ ∧
      (t.ch c).motion = some (newMotion slot .reference none .dec s.roughness true) ∧
      (t.ch c).holdTimer = none ∧
      answered s t slot 4 .accepted [byteAt b 1] ∧ statusHanded c s t ∧ othersKept c s t ∧
      { t with
        normal := s.normal, channels := s.channels, startQueue := s.startQueue, txQueue := s.txQueue
        readout := s.readout } = s

/-- A LOCKOUT changes exactly the allowed slots its masks and action name, and a SET that removes a channel's owner
takes its ownership away (R113, R114, R115). -/
def Obligations.LockoutChangesTheMap : Prop :=
  ∀ (s : State) (slot : Slot) (b : List Byte) (rest : List Request),
    s.noneDue → s.coherent → s.takes .lockout slot b rest → byteAt b 3 = 0 ∨ byteAt b 3 = 1 →
    ∃ t, exec .lockout s = .next t ∧ t.normal = rest ∧
      (∀ c i, (t.ch c).allowed.get i =
        (if inMask (byteAt b 1) c && inSlotMask (byteAt b 2) i then decide (byteAt b 3 = 1)
          else (s.ch c).allowed.get i)) ∧
      (∀ c, if byteAt b 3 = 0 ∧ inMask (byteAt b 1) c = true ∧
          ∃ o ∈ (s.ch c).owner, inSlotMask (byteAt b 2) o.slot = true ∧ (s.ch c).allowed.get o.slot = true
        then (t.ch c).owner = none ∧ (t.ch c).stopCause = .lockout ∧
          (t.ch c).mstate = (if (s.ch c).mstate = .queued then .idle else .braking)
        else { t.ch c with allowed := (s.ch c).allowed } = s.ch c) ∧
      answered s t slot 5 .accepted [byteAt b 1, byteAt b 2] ∧
      t.startQueue = s.startQueue.filter (fun c => (t.ch c).mstate = .queued) ∧
      { t with
        normal := s.normal, channels := s.channels, startQueue := s.startQueue, txQueue := s.txQueue
        readout := s.readout } = s

/-- A STOP reaches every masked channel whatever its owner: none of them drives or has an owner after it, queued ones
leave the start queue, a pending follow-on becomes NONE and the brake ends the motion, and no answer is queued
(R100, R101, R103, R126). A reversal that has driven takes the outcome CUT, one that has not the outcome NONE, and
no other record of the list changes (R97, R98, R101, R154). -/
def Obligations.StopStopsTheMask : Prop :=
  ∀ (s : State) (r : StopRequest) (rest : List StopRequest),
    s.noneDue → s.coherent → s.urgent = r :: rest →
    ∃ t, exec .stop s = .next t ∧ t.urgent = rest ∧
      (∀ c,
        let u := s.ch c
        let v := t.ch c
        if inMask r.mask.toNat c then
          v.owner = none ∧ v.drives = false ∧
            (match u.mstate with
              | .idle => v = u
              | .queued => v.mstate = .idle ∧ v.stopCause = .stop ∧ v.motion = none
              | .braking => v.mstate = .braking ∧ v.bridge = .brake ∧ v.brakeTimer = u.brakeTimer ∧
                  (if (u.motion.bind (·.braking)).map (·.followOn) = some .none then v = u
                  else v.motion.bind (·.braking) = some ⟨.none, true⟩ ∧ v.stopCause = .stop)
              | _ => v.mstate = .braking ∧ v.stopCause = .stop ∧ v.bridge = .brake ∧
                  v.motion.bind (·.braking) = some ⟨.none, true⟩ ∧
                  v.brakeTimer = some (s.ms + u.tune.brake)) ∧
            v.position = u.position ∧ v.datum = (if u.datum = .seeking then v.datum else u.datum)
        else v = u) ∧
      t.startQueue = s.startQueue.filter (fun c => !inMask r.mask.toNat c) ∧
      (∀ e ∈ t.txQueue, e.frame.tag = .answer → e ∈ s.txQueue) ∧
      t.incidents = outcomesWritten (fun c =>
        let u := s.ch c
        if !inMask r.mask.toNat c then none
        else match u.mstate with
          | .reversing => some .cut
          | .paused =>
            if u.motion.bind (·.pausedFrom) = some .reversing then some .cut
            else if u.motion.bind (·.pausedFrom) = some .reversal then some .none
            else none
          | .braking =>
            if (u.motion.bind (·.braking)).map (·.followOn) = some .reversal then some .none else none
          | _ => none) s ∧
      { t with
        urgent := s.urgent, channels := s.channels, startQueue := s.startQueue, txQueue := s.txQueue
        incidents := s.incidents } = s

/-- A VEHICLE sets the roughness level, at most 3, restarts the vehicle-data hold and raises the maximum of every
motion that runs; the expiry of the hold brings the level to 0 and leaves every motion's maximum as it is (R51,
R52, R53).
That a motion which waits again after it has entered STARTING still runs for this is the model's choice (log entry
18), and so are the field `started` that says so (log entry 7) and the moment to which the clock goes (log entry
2). -/
def Obligations.VehicleSetsRoughness : Prop :=
  (∀ (s : State) (slot : Slot) (b : List Byte) (rest : List Request),
    s.noneDue → s.takes .vehicle slot b rest →
    let n := min (byteAt b 1) 3
    ∃ t, exec .vehicle s = .next t ∧ t.normal = rest ∧ t.roughness = n ∧
      t.vehicleTimer = some (s.ms + s.globals.vehicleHold) ∧
      (∀ c, (t.ch c).motion = (if n = s.roughness then (s.ch c).motion
          else (s.ch c).motion.map fun m => if m.started then { m with maxRough := max m.maxRough n } else m) ∧
        { t.ch c with motion := (s.ch c).motion } = s.ch c) ∧
      answered s t slot 7 (if byteAt b 1 ≤ 3 then .accepted else .clamped) [n] ∧
      { t with
        normal := s.normal, channels := s.channels, roughness := s.roughness
        vehicleTimer := s.vehicleTimer, txQueue := s.txQueue, readout := s.readout } = s) ∧
  (∀ (s : State) (d : Nat), s.vehicleTimer = some d →
    ∃ t, exec .vehicleDataHoldExpiry s = .next t ∧ t.clock = max s.clock (d * 1000) ∧ t.roughness = 0 ∧
      t.vehicleTimer = none ∧ channelsKept s t ∧
      { t with
        clock := s.clock, channels := s.channels, roughness := s.roughness
        vehicleTimer := s.vehicleTimer } = s)

/-! ### Readout and restore (R67 to R77) -/

/-- A PROFILE_READ with the engine IDLE captures the snapshot with its check byte, hands the header and is answered
ACCEPTED (R67, R68, R70, R195). The engine hands its next frame, behind every frame in the queue, once none of
its frames is in the queue and a place is free (R68, R172). After the header come Z/2 data frames and the end
frame, with the bytes of R195.
That the header is handed before the answer is the model's choice (log entry 10). -/
def Obligations.ReadoutIsSent : Prop :=
  (∀ (s : State) (slot : Slot) (b : List Byte) (rest : List Request) (c : Chan),
     let u := s.ch c
     let lt := if u.tune.axis = .oneSided then 0 else u.tune.lt
     s.noneDue → s.takes .profileRead slot b rest → Chan.ofNat? (byteAt b 1) = some c → s.readout = none →
     s.txQueue.length + 8 ≤ 12 → (∀ e ∈ s.txQueue, e.frame.tag ≠ .readout) →
     ∃ t n, exec .profileRead s = .next t ∧ t.normal = rest ∧ t.readout = some ⟨n, 1⟩ ∧
       n.chan = c ∧ n.z = u.tune.z ∧ n.lo = u.tune.lo ∧ n.lt = lt ∧ n.entries = u.zones ∧
       n.position = u.position ∧ n.datum = u.datum ∧
       n.check = checkByte u.tune.z u.tune.lo lt u.zones u.position (decide (u.datum = .referenced)) ∧
       (∃ e ∈ t.txQueue, e.frame.tag = .readout ∧ e.frame.ident = BitVec.ofNat 11 s.globals.readoutId ∧
         e.frame.data = [byteOf c.toNat, byteOf c.toNat, byteOf u.tune.z, byteOf (u.tune.lo / 256),
           byteOf u.tune.lo, byteOf (lt / 256), byteOf lt]) ∧
       answered s t slot 8 .accepted [byteAt b 1] ∧ channelsKept s t ∧
       { t with
         normal := s.normal, channels := s.channels, txQueue := s.txQueue, readout := s.readout
         configTimer := s.configTimer } = s ∧
       (s.partState = .run → t.configTimer = s.configTimer)) ∧
  (∀ (s : State) (r : Readout), s.readout = some r → r.handed < r.snap.frames → s.txQueue.length < 12 →
     (∀ e ∈ s.txQueue, e.frame.tag ≠ .readout) →
     ∃ t, exec .readoutFrameHanded s = .next t ∧ t.readout = some ⟨r.snap, r.handed + 1⟩ ∧
       t.txQueue = s.txQueue ++ [⟨readoutFrame s.globals r.snap r.handed, none, false⟩] ∧
       { t with txQueue := s.txQueue, readout := s.readout } = s) ∧
  (∀ (g : GlobalTuning) (n : Snapshot) (k e1 e2 : Nat), n.z = 16 ∨ n.z = 32 ∨ n.z = 64 →
     e1 < 65536 → e2 < 65536 → n.check < 256 → -16384 ≤ n.position → n.position ≤ 16383 →
     let w := twosComplement 16 n.position
     (readoutFrame g n k).tag = .readout ∧ (readoutFrame g n k).ident = BitVec.ofNat 11 g.readoutId ∧
     (k < n.z / 2 → n.entries[2 * k]? = some e1 → n.entries[2 * k + 1]? = some e2 →
       (readoutFrame g n (k + 1)).data.map (·.toNat) =
         [64 + n.chan.toNat, n.chan.toNat, k, e1 / 256, e1 % 256, e2 / 256, e2 % 256]) ∧
     (readoutFrame g n (n.z / 2 + 1)).data.map (·.toNat) =
       [128 + n.chan.toNat, w / 256, w % 256,
         (match n.datum with | .unreferenced => 0 | .seeking => 2 | .referenced => 5), n.check] ∧
     n.frames = n.z / 2 + 2)

/-- A restore in CONFIG: a BEGIN from the holder's slot or with the buffer FREE starts a load, and the DATA frame
that carries the expected segment joins it; both restart the staging timer and the config idle timer (R71, R72,
R73, R74, R183). -/
def Obligations.RestoreLoads : Prop :=
  (∀ (s : State) (slot : Slot) (b : List Byte) (rest : List Request) (c : Chan),
    s.noneDue → s.takes .restoreBegin slot b rest → s.partState = .config →
    Chan.ofNat? (byteAt b 1) = some c → byteAt b 2 = 16 ∨ byteAt b 2 = 32 ∨ byteAt b 2 = 64 →
    (∀ l ∈ s.staging, l.slot = slot) →
    ∃ t, exec .restoreBegin s = .next t ∧ t.normal = rest ∧
      t.staging = some ⟨slot, c, byteAt b 2, wordAt b 3, wordAt b 5, 0, [], s.ms + 1000⟩ ∧
      t.configTimer = some (s.ms + 3000) ∧ answered s t slot 9 .accepted [byteAt b 1] ∧
      channelsKept s t ∧
      { t with
        normal := s.normal, channels := s.channels, staging := s.staging, configTimer := s.configTimer
        txQueue := s.txQueue, readout := s.readout } = s) ∧
  (∀ (s : State) (slot : Slot) (b : List Byte) (rest : List Request) (l : Staging),
    s.noneDue → s.takes .restoreData slot b rest → s.partState = .config →
    s.staging = some l → l.slot = slot →
    ∃ t, exec .restoreData s = .next t ∧ t.normal = rest ∧ channelsKept s t ∧
      (if byteAt b 1 = l.chan.toNat ∧ byteAt b 2 = l.expected ∧ l.expected < l.z / 2 then
        t.staging = some { l with
          expected := l.expected + 1, entries := l.entries ++ [wordAt b 3, wordAt b 5]
          expires := s.ms + 1000 } ∧
        answered s t slot 10 .accepted [byteAt b 1, byteAt b 2]
      else t.staging = none ∧ answered s t slot 10 .sequence [byteAt b 1, byteAt b 2]) ∧
      t.configTimer = some (s.ms + 3000) ∧
      { t with
        normal := s.normal, channels := s.channels, staging := s.staging, configTimer := s.configTimer
        txQueue := s.txQueue, readout := s.readout } = s)

/-- A RESTORE_END of the claiming slot frees the buffer; with every segment, the channel's geometry and the right
check byte it installs the table, and takes the position where no edge was counted since reset and it lies
inside the axis (R23, R75, R76, R77). -/
def Obligations.RestoreInstalls : Prop :=
  ∀ (s : State) (slot : Slot) (b : List Byte) (rest : List Request) (l : Staging),
    let u := s.ch l.chan
    let lt := if u.tune.axis = .oneSided then 0 else u.tune.lt
    let p := signedAt b 1
    let flag := (byteAt b 3).testBit 0
    let takenPos := flag = true ∧ u.edged = false ∧ -(lt : Int) ≤ p ∧ p ≤ u.tune.lo
    s.noneDue → s.takes .restoreEnd slot b rest → s.partState = .config →
    s.staging = some l → l.slot = slot → l.expected = l.z / 2 →
    l.z = u.tune.z → l.lo = u.tune.lo → l.lt = lt →
    byteAt b 4 = checkByte l.z l.lo l.lt l.entries p flag →
    ∃ t, exec .restoreEnd s = .next t ∧ t.normal = rest ∧ t.staging = none ∧
      (t.ch l.chan).zones = l.entries ∧
      (t.ch l.chan).position = (if takenPos then p else u.position) ∧
      (t.ch l.chan).datum = (if takenPos then .referenced else u.datum) ∧
      (t.ch l.chan).summary = u.summary ∧ (t.ch l.chan).edged = u.edged ∧
      answered s t slot 11 (if takenPos then .accepted else .posIgnored) [] ∧
      othersKept l.chan s t ∧
      { t with
        normal := s.normal, channels := s.channels, staging := s.staging, configTimer := s.configTimer
        txQueue := s.txQueue, readout := s.readout } = s

/-- The check byte is the low 8 bits of the sum of Z, the bytes of Lo, Lt, the entries and the position, and the flag
(R70, R76): a sum over the bytes of a readout that a restore of the same values repeats. -/
def Obligations.CheckByteIsTheByteSum : Prop :=
  ∀ (z lo lt : Nat) (entries : List Nat) (p : Int) (flag : Bool),
    lo < 65536 → lt < 65536 → (∀ e ∈ entries, e < 65536) → -32768 ≤ p → p < 32768 →
    ∃ w : Nat, (w : Int) = (if p < 0 then p + 65536 else p) ∧
      checkByte z lo lt entries p flag < 256 ∧
      (checkByte z lo lt entries p flag : Int) ≡
        z + (lo / 256 + lo % 256 : Nat) + (lt / 256 + lt % 256 : Nat) +
          ((entries.map fun e => e / 256 + e % 256).sum : Nat) + (w / 256 + w % 256 : Nat) +
          (if flag then 1 else 0) [ZMOD 256]

/-! ### Zones and adaptation (R58, R59, R60, R65) -/

/-- The zone lookup: on a ONE-SIDED axis zone z covers z × Lz to z × Lz + Lz − 1 and the last takes the rest; a
TWO-SIDED axis has a slide half and a tilt half; every position has a zone below Z (R58, R59, R60). -/
def Obligations.ZonesAreLookedUp : Prop :=
  ∀ (t : ChanTuning) (p : Int) (len : Nat), t.z = 16 ∨ t.z = 32 ∨ t.z = 64 → 0 < t.lo →
    let k := zoneOf t p
    let half := t.z / 2
    k < t.z ∧
    (t.axis = .oneSided → (len - 1) * t.z < t.lo → t.lo ≤ len * t.z → 0 < len →
      k * len ≤ p.natAbs ∧ (k + 1 < t.z → p.natAbs ≤ k * len + (len - 1))) ∧
    (t.axis = .twoSided → 0 ≤ p → (len - 1) * half < t.lo → t.lo ≤ len * half → 0 < len →
      k < half ∧ k * len ≤ p.natAbs ∧ (k + 1 < half → p.natAbs ≤ k * len + (len - 1))) ∧
    (t.axis = .twoSided → p < 0 → 0 < t.lt → (len - 1) * half < t.lt → t.lt ≤ len * half → 0 < len →
      half ≤ k ∧ (k - half) * len ≤ p.natAbs ∧
        (k + 1 < t.z → p.natAbs ≤ (k - half) * len + (len - 1))) ∧
    (t.axis = .twoSided → p < 0 → t.lt = 0 → k = half)

/-- One zone at a clean close: untouched without averages, learned whole at first, and then moved by an eighth of the
difference toward the average, never past it, where the difference is within Ladapt (R65). -/
def Obligations.ZonesAdaptByAnEighth : Prop :=
  ∀ (ladapt pref : Nat) (x : Accum),
    let avg := x.sum / x.count
    (x.count = 0 → adaptZone ladapt pref x = pref) ∧
    (0 < x.count → pref = 0 → adaptZone ladapt pref x = avg) ∧
    (0 < x.count → 0 < pref → pref ≤ avg → avg - pref ≤ ladapt →
      adaptZone ladapt pref x = pref + (avg - pref) / 8 ∧ adaptZone ladapt pref x ≤ avg) ∧
    (0 < x.count → 0 < pref → avg < pref → pref - avg ≤ ladapt →
      adaptZone ladapt pref x = pref - (pref - avg) / 8 ∧ avg ≤ adaptZone ladapt pref x) ∧
    (0 < x.count → 0 < pref → ladapt < max (avg - pref) (pref - avg) → adaptZone ladapt pref x = pref)

/-! ### Incidents, clearing, configuration and tuning (R156, R182 to R189) -/

/-- An INCIDENT_READ that finds its record sends the two frames of the record, A ahead of B, with the bytes of R195, and
no answer; otherwise it is answered MALFORMED with the index and the number of records and sends no such frame
(R156, R171, R178, R193, R195). -/
def Obligations.IncidentReadSendsTheRecord : Prop :=
  (∀ (s : State) (slot : Slot) (b : List Byte) (rest : List Request),
    s.noneDue → s.takes .incidentRead slot b rest →
    ∃ t, exec .incidentRead s = .next t ∧ t.normal = rest ∧ channelsKept s t ∧
      { t with
        normal := s.normal, channels := s.channels, txQueue := s.txQueue, readout := s.readout
        configTimer := s.configTimer } = s ∧
      t.configTimer = (if s.partState = .config then some (s.ms + 3000) else s.configTimer) ∧
      (∀ r, s.incidents[byteAt b 1]? = some r →
        (∀ e ∈ t.txQueue, e.frame.tag = .answer → e ∈ s.txQueue) ∧
        (s.txQueue.length + 8 ≤ 12 →
          ∃ x y z, t.txQueue = x ++
            ⟨incidentDataA s.globals slot (byteAt b 1) r, none, false⟩ :: y ++
            ⟨incidentDataB s.globals slot (byteAt b 1) s.incidents.length r, none, false⟩ :: z)) ∧
      (s.incidents.length ≤ byteAt b 1 →
        answered s t slot 12 .malformed [byteAt b 1, s.incidents.length] ∧
        ∀ e ∈ t.txQueue, e.frame.tag = .incidentData → e ∈ s.txQueue)) ∧
  (∀ (g : GlobalTuning) (slot : Slot) (i n f t : Nat) (r : Incident),
    i ≤ 7 → n ≤ 8 → r.strikesAfter ≤ 3 → r.zone ≤ 63 → r.roughness ≤ 3 → r.supply ≤ 25575 →
    r.mode ≠ .reversal → -16384 ≤ r.position → r.position ≤ 16383 → f ≤ 1023 → t ≤ 1023 →
    r.force = some (f, t) ∨ (r.force = none ∧ f = 0 ∧ t = 0) →
    (∀ x ∈ r.outcome, -16384 ≤ x.2 ∧ x.2 ≤ 16383) →
    let a := incidentDataA g slot i r
    let b := incidentDataB g slot i n r
    let w := twosComplement 16 ((r.outcome.map (·.2)).getD 0)
    a.tag = .incidentData ∧ b.tag = .incidentData ∧
    a.ident = BitVec.ofNat 11 (g.answerBase + slot.toNat) ∧ b.ident = a.ident ∧ a.data.length = 8 ∧
    bigEndian a.data = i * 2 ^ 61 + r.chan.toNat * 2 ^ 58 +
      (match r.cause with | .pinch => 0 | .stall => 1 | .edge => 2) * 2 ^ 56 +
      r.partTime / 1000 % 32768 * 2 ^ 41 + twosComplement 15 r.position * 2 ^ 26 + r.zone * 2 ^ 20 +
      f * 2 ^ 10 + t ∧
    b.data.map (·.toNat) =
      [i * 32 + r.roughness * 8 + r.owner.toNat * 2,
        (match r.mode with | .express => 0 | .hold => 1 | .reference => 2 | .reversal => 3) * 64 +
          r.strikesAfter * 16 +
          (match r.outcome.map (·.1) with
            | none => 0 | some .completed => 1 | some .cut => 2 | some .stalled => 3 | some .hall => 4
            | some .none => 5),
        r.supply / 256, r.supply % 256, w / 256, w % 256, n])

/-- A CLEAR acts on what its selection and its mask name, and on nothing else (R16, R157, R160, R189). -/
def Obligations.ClearClears : Prop :=
  ∀ (s : State) (slot : Slot) (b : List Byte) (rest : List Request),
    s.noneDue → s.takes .clear slot b rest →
    let sel := byteAt b 1
    ∃ t, exec .clear s = .next t ∧ t.normal = rest ∧
      (∀ c,
        (if sel.testBit 0 ∧ inMask (byteAt b 2) c then
          (t.ch c).stepFaults = 0 ∧ (t.ch c).reverseFaults = 0 ∧ (t.ch c).speedFaults = 0 ∧
            (t.ch c).summary = ⟨false, false, false⟩
        else
          (t.ch c).stepFaults = (s.ch c).stepFaults ∧ (t.ch c).reverseFaults = (s.ch c).reverseFaults ∧
            (t.ch c).speedFaults = (s.ch c).speedFaults ∧ (t.ch c).summary = (s.ch c).summary) ∧
        (if sel.testBit 1 ∧ inMask (byteAt b 2) c then
          (t.ch c).strikes = 0 ∧ (t.ch c).strikeTimer = none
        else (t.ch c).strikes = (s.ch c).strikes ∧ (t.ch c).strikeTimer = (s.ch c).strikeTimer) ∧
        { t.ch c with
          stepFaults := (s.ch c).stepFaults, reverseFaults := (s.ch c).reverseFaults
          speedFaults := (s.ch c).speedFaults, summary := (s.ch c).summary
          strikes := (s.ch c).strikes, strikeTimer := (s.ch c).strikeTimer } = s.ch c) ∧
      t.incidents = (if sel.testBit 2 then [] else s.incidents) ∧
      answered s t slot 13 .accepted [] ∧
      { t with
        normal := s.normal, channels := s.channels, incidents := s.incidents, txQueue := s.txQueue
        readout := s.readout, configTimer := s.configTimer } = s

/-- CONFIG in RUN enters CONFIG when every channel is IDLE and is answered BUSY otherwise; in CONFIG it only restarts
the idle timer (R183, R184). -/
def Obligations.ConfigEntersWhenIdle : Prop :=
  ∀ (s : State) (slot : Slot) (b : List Byte) (rest : List Request),
    s.noneDue → s.takes .config slot b rest →
    ∃ t, exec .config s = .next t ∧ t.normal = rest ∧ channelsKept s t ∧
      (if s.partState = .config ∨ ∀ c ∈ Chan.all, (s.ch c).mstate = .idle then
        t.partState = .config ∧ t.configTimer = some (s.ms + 3000) ∧ answered s t slot 14 .accepted []
      else t.partState = .run ∧ t.configTimer = s.configTimer ∧ answered s t slot 14 .busy []) ∧
      { t with
        normal := s.normal, channels := s.channels, partState := s.partState
        configTimer := s.configTimer, txQueue := s.txQueue, readout := s.readout } = s

/-- Leaving CONFIG, by START or by the idle timer: a load is abandoned, the clamps of R186 are applied in their order
to every channel and the part is in RUN; START tells by CLAMPED whether a clamp changed a value, the expiry
sends nothing (R183, R185, R186).
The moment to which the clock goes is the model's choice (log entry 2). -/
def Obligations.LeavingConfigClamps : Prop :=
  let clamped (s t : State) : Prop :=
    t.partState = .run ∧ t.configTimer = none ∧ t.staging = none ∧
    (∀ c,
      let u := (s.ch c).tune
      let lt := if u.axis = .oneSided then 0 else u.lt
      (t.ch c).tune = { u with
        lt := lt
        refEnd := if u.axis = .oneSided then .closed else u.refEnd
        b := min u.b (max u.lo lt)
        softZone := min u.softZone u.s } ∧
      { t.ch c with tune := u } = s.ch c) ∧
    { t with
      clock := s.clock, normal := s.normal, channels := s.channels, partState := s.partState
      configTimer := s.configTimer, staging := s.staging, txQueue := s.txQueue, readout := s.readout } = s
  (∀ (s : State) (slot : Slot) (b : List Byte) (rest : List Request),
    s.noneDue → s.takes .start slot b rest → s.partState = .config →
    ∃ t, exec .start s = .next t ∧ t.normal = rest ∧ t.clock = s.clock ∧ clamped s t ∧
      answered s t slot 15
        (if ∀ c ∈ Chan.all, (t.ch c).tune = (s.ch c).tune then .accepted else .clamped) []) ∧
  (∀ (s : State) (d : Nat), s.partState = .config → s.configTimer = some d →
    ∃ t, exec .configIdleExpiry s = .next t ∧ t.clock = max s.clock (d * 1000) ∧ clamped s t ∧
      t.txQueue = s.txQueue ∧ t.normal = s.normal ∧ t.readout = s.readout)

/-- The tuning table: the lines of section 9.5, each with its number, its range, the field it holds and its default, and
what a target names (R187, R192). A TUNE in CONFIG stores the value brought into the parameter's range, and the
answer carries the value held: a span clamps it; a set takes the largest member below it, or the smallest (R187,
R193). -/
def Obligations.TuneStoresInRange : Prop :=
  tabled chanRows chanRange ChanTuning.read ChanTuning.write .default ∧
  tabled globalRows globalRange GlobalTuning.read GlobalTuning.write .default ∧
  tabled slotRows slotRange SlotEntry.read SlotEntry.write (State.reset.slots.get .s0) ∧
  (∀ n x y, tuneTarget n x = some y ↔
    (∃ c r, y = .chan c r ∧ chanRange n = some r ∧ c.toNat = x) ∨
    (∃ r, y = .global r ∧ globalRange n = some r ∧ x = 255) ∨
    (∃ i r, y = .slot i r ∧ slotRange n = some r ∧ i.toNat = x)) ∧
  (∀ low high v, low ≤ high → (ParamRange.span low high).bringIn v =
    (if v < low then low else if high < v then high else v)) ∧
  (∀ v, (ParamRange.members [16, 32, 64]).bringIn v = (if v < 32 then 16 else if v < 64 then 32 else 64)) ∧
  (∀ v, (ParamRange.members [1, 2, 4, 8]).bringIn v =
    (if v < 2 then 1 else if v < 4 then 2 else if v < 8 then 4 else 8)) ∧
  (∀ (s : State) (slot : Slot) (b : List Byte) (rest : List Request) (x : TuneTarget),
    s.noneDue → s.takes .tune slot b rest → s.partState = .config →
    tuneTarget (byteAt b 1) (byteAt b 2) = some x →
    let n := byteAt b 1
    let held (r : ParamRange) : Nat := r.bringIn (wordAt b 3)
    let told (t : State) (w : Nat) : Prop :=
      answered s t slot 16 (if w = wordAt b 3 then .accepted else .clamped) [n, byteAt b 2, w / 256, w % 256]
    ∃ t, exec .tune s = .next t ∧ t.normal = rest ∧ t.configTimer = some (s.ms + 3000) ∧
      match x with
      | .chan c r => (t.ch c).tune = (s.ch c).tune.write (held r) n ∧
          t.ch c = { (s.ch c).tuneTo n (held r) with statusDue := false } ∧
          told t (held r) ∧ othersKept c s t ∧
          { t with
            normal := s.normal, channels := s.channels, configTimer := s.configTimer
            txQueue := s.txQueue, readout := s.readout } = s
      | .global r => t.globals = s.globals.write (held r) n ∧ told t (held r) ∧ channelsKept s t ∧
          { t with
            normal := s.normal, channels := s.channels, configTimer := s.configTimer
            globals := s.globals, txQueue := s.txQueue, readout := s.readout } = s
      | .slot i r => t.slots.get i = (s.slots.get i).write (held r) n ∧ told t (held r) ∧ channelsKept s t ∧
          (∀ j, j ≠ i → t.slots.get j = s.slots.get j) ∧
          { t with
            normal := s.normal, channels := s.channels, configTimer := s.configTimer, slots := s.slots
            txQueue := s.txQueue, readout := s.readout } = s)

/-- What a TUNE of a channel parameter does beside the new value: a change of axis, Lo, Lt or Z clears the zone table
and loses the datum, a change of count mode or polarity loses the datum, a change of To loses it where the
position now lies outside, and every other leaves it; position and faults stay, and STATUS is due where the
datum state changes. The value already held is no change, and in RUN nothing is taken (R24, R57, R187, R188). -/
def Obligations.TuneActsOnTheDatum : Prop :=
  (∀ (u : Channel) (n v : Nat), u.tune.read n ≠ v →
    let w := u.tuneTo n v
    let clears := n = 2 ∨ n = 8 ∨ n = 9 ∨ n = 11
    let lt : Int := if u.tune.axis = .oneSided then 0 else u.tune.lt
    w.tune = u.tune.write v n ∧
    w.zones = (if clears then List.replicate w.tune.z 0 else u.zones) ∧
    w.accum = (if clears then List.replicate w.tune.z ⟨0, 0⟩ else u.accum) ∧
    w.datum = (if clears ∨ n = 5 ∨ n = 6 ∨
        (n = 10 ∧ (u.position < -(lt + v) ∨ (u.tune.lo : Int) + v < u.position))
      then .unreferenced else u.datum) ∧
    w.statusDue = (u.statusDue || decide (w.datum ≠ u.datum)) ∧
    { w with
      tune := u.tune, zones := u.zones, accum := u.accum, datum := u.datum, trips := u.trips
      statusDue := u.statusDue } = u) ∧
  (∀ (u : Channel) (n v : Nat), u.tune.read n = v → u.tuneTo n v = u) ∧
  (∀ (s : State) (slot : Slot) (b : List Byte) (rest : List Request),
    s.noneDue → s.takes .tune slot b rest → s.partState = .run →
    ∃ t, exec .tune s = .next t ∧ t.normal = rest ∧
      answered s t slot 16 .state [byteAt b 1, byteAt b 2] ∧ channelsKept s t ∧
      { t with normal := s.normal, channels := s.channels, txQueue := s.txQueue, readout := s.readout } = s)

/-- A request with no byte 0 or of an unknown kind is answered MALFORMED and changes nothing. A request of any kind but
STOP, which is screened at its delivery, that is shorter than its kind's length is answered MALFORMED, and one
whose slot lacks the right its kind needs is answered DENIED; a refused request changes nothing (R110, R170, R191,
R192). An ANSWER carries the kind, the outcome and its trailer in the bytes of R193 with the codes of R196 (R178).
That a request row takes the waiting request is the model's choice (log entry 5). -/
def Obligations.ScreenRefuses : Prop :=
  (∀ (s : State) (slot : Slot) (b : List Byte) (rest : List Request),
    s.noneDue → s.urgent = [] → s.normal = ⟨slot, b⟩ :: rest →
    b = [] ∨ byteAt b 0 = 0 ∨ 16 < byteAt b 0 →
    ∃ t, exec .unknownRequest s = .next t ∧ t.normal = rest ∧
      answered s t slot (byteAt b 0) .malformed [if b = [] then 1 else 0] ∧ channelsKept s t ∧
      { t with normal := s.normal, channels := s.channels, txQueue := s.txQueue, readout := s.readout } = s) ∧
  (∀ (s : State) (slot : Slot) (b : List Byte) (rest : List Request) (kind len : Nat) (cmd : Instr)
      (right : Option Nat),
    s.noneDue → s.urgent = [] → s.normal = ⟨slot, b⟩ :: rest → b ≠ [] → byteAt b 0 = kind →
    (kind, cmd, len, right) ∈ ([
      (1, .move, if byteAt b 3 = 3 then 6 else 4, some 0), (2, .group, 3, some 0), (4, .reference, 2, some 4),
      (5, .lockout, 4, some 3), (6, .query, 2, none), (7, .vehicle, 2, some 2), (8, .profileRead, 2, some 4),
      (9, .restoreBegin, 7, some 4), (10, .restoreData, 7, some 4), (11, .restoreEnd, 5, some 4),
      (12, .incidentRead, 2, some 4), (13, .clear, 3, some 4), (14, .config, 1, some 4), (15, .start, 1, some 4),
      (16, .tune, 5, some 4)] : List (Nat × Instr × Nat × Option Nat)) →
    b.length < len ∨ (∃ n ∈ right, (s.slots.get slot).rights.getLsbD n = false) →
    ∃ t, exec cmd s = .next t ∧ t.normal = rest ∧
      answered s t slot kind (if b.length < len then .malformed else .denied) [0] ∧ channelsKept s t ∧
      { t with normal := s.normal, channels := s.channels, txQueue := s.txQueue, readout := s.readout } = s) ∧
  (∀ (g : GlobalTuning) (slot : Slot) (kind : Nat) (r : Reply) (trailer : List Nat),
    kind < 256 → trailer.length ≤ 4 → (∀ x ∈ trailer, x < 256) →
    let f := answerFrame g slot kind r trailer
    f.tag = .answer ∧ f.ident = BitVec.ofNat 11 (g.answerBase + slot.toNat) ∧
    f.data.map (·.toNat) = [kind, r.code] ++ (trailer ++ [0, 0, 0, 0]).take 4) ∧
  ([.accepted, .clamped, .atTarget, .busy, .denied, .locked, .disabled, .state, .unref, .supply, .strikes,
     .reversing, .full, .malformed, .sequence, .check, .mismatch, .posIgnored].map Reply.code = List.range 18)
end

