-- ==== Sys2Proof/Laws/State.lean ====
section
/-! SUPPORT. One lemma per field per update: what the named updates of a channel and of the part leave as it is, and
what they set. None unfolds in a later proof. -/

namespace Sys2Proof

-- One proof at a time: proofs run side by side would wait for one another (each waiting thread reserves a whole stack).
set_option Elab.async false

/-! ### Values per channel and per slot -/

@[simp] theorem PerChan.get_set_self {α : Type} (v : PerChan α) (c : Chan) (a : α) : (v.set c a).get c = a := by
  cases c <;> rfl

@[simp] theorem PerChan.get_set_ne {α : Type} (v : PerChan α) {c d : Chan} (a : α) (h : d ≠ c) :
    (v.set c a).get d = v.get d := by
  cases c <;> cases d <;> first | rfl | exact absurd rfl h

@[simp] theorem PerChan.get_ofFn {α : Type} (f : Chan → α) (c : Chan) : (PerChan.ofFn f).get c = f c := by
  cases c <;> rfl

@[simp] theorem PerChan.get_const {α : Type} (a : α) (c : Chan) : (PerChan.const a).get c = a := by
  cases c <;> rfl

theorem PerChan.ext_get {α : Type} {v w : PerChan α} (h : ∀ c, v.get c = w.get c) : v = w := by
  cases v; cases w
  have h0 := h .ch0; have h1 := h .ch1; have h2 := h .ch2
  have h3 := h .ch3; have h4 := h .ch4; have h5 := h .ch5
  simp only [PerChan.get] at h0 h1 h2 h3 h4 h5
  subst h0 h1 h2 h3 h4 h5; rfl

@[simp] theorem PerChan.set_get_self {α : Type} (v : PerChan α) (c : Chan) : v.set c (v.get c) = v := by
  cases c <;> rfl

@[simp] theorem PerSlot.get_set_self {α : Type} (v : PerSlot α) (i : Slot) (a : α) : (v.set i a).get i = a := by
  cases i <;> rfl

@[simp] theorem PerSlot.get_set_ne {α : Type} (v : PerSlot α) {i j : Slot} (a : α) (h : j ≠ i) :
    (v.set i a).get j = v.get j := by
  cases i <;> cases j <;> first | rfl | exact absurd rfl h

@[simp] theorem PerSlot.get_const {α : Type} (a : α) (i : Slot) : (PerSlot.const a).get i = a := by
  cases i <;> rfl

@[simp] theorem PerSlot.set_get_self {α : Type} (v : PerSlot α) (i : Slot) : v.set i (v.get i) = v := by
  cases i <;> rfl

theorem Chan.mem_all (c : Chan) : c ∈ Chan.all := by cases c <;> simp [Chan.all]

theorem Slot.mem_all (i : Slot) : i ∈ Slot.all := by cases i <;> simp [Slot.all]

namespace Machine

/-! ### One channel of the part -/

@[simp] theorem State.ch_setCh_self (s : State) (c : Chan) (x : Channel) : (s.setCh c x).ch c = x := by
  simp [State.ch, State.setCh]

@[simp] theorem State.ch_setCh_ne (s : State) {c d : Chan} (x : Channel) (h : d ≠ c) :
    (s.setCh c x).ch d = s.ch d := by
  simp [State.ch, State.setCh, h]

@[simp] theorem State.ch_modCh_self (s : State) (c : Chan) (f : Channel → Channel) :
    (s.modCh c f).ch c = f (s.ch c) := by
  simp [State.modCh]

@[simp] theorem State.ch_modCh_ne (s : State) {c d : Chan} (f : Channel → Channel) (h : d ≠ c) :
    (s.modCh c f).ch d = s.ch d := by
  simp [State.modCh, h]

/-- A channel of the part after a change of one, by cases. -/
theorem State.ch_modCh (s : State) (c d : Chan) (f : Channel → Channel) :
    (s.modCh c f).ch d = if d = c then f (s.ch d) else s.ch d := by
  by_cases h : d = c
  · subst h; simp
  · simp [h]

/-- Two states that agree on every channel have the same channels. -/
theorem State.channels_eq {s t : State} (h : ∀ c, t.ch c = s.ch c) : t.channels = s.channels :=
  PerChan.ext_get h

@[simp] theorem State.ch_waitUntil (s : State) (d : Nat) (c : Chan) : (s.waitUntil d).ch c = s.ch c := rfl

@[simp] theorem State.waitUntil_clock (s : State) (d : Nat) :
    (s.waitUntil d).clock = max s.clock (d * Config.usPerMs) := rfl

@[simp] theorem State.waitUntil_pending (s : State) (d : Nat) : (s.waitUntil d).pending = s.pending := rfl
@[simp] theorem State.waitUntil_channels (s : State) (d : Nat) : (s.waitUntil d).channels = s.channels := rfl
@[simp] theorem State.waitUntil_globals (s : State) (d : Nat) : (s.waitUntil d).globals = s.globals := rfl
@[simp] theorem State.waitUntil_slots (s : State) (d : Nat) : (s.waitUntil d).slots = s.slots := rfl
@[simp] theorem State.waitUntil_bitRate (s : State) (d : Nat) : (s.waitUntil d).bitRate = s.bitRate := rfl
@[simp] theorem State.waitUntil_urgent (s : State) (d : Nat) : (s.waitUntil d).urgent = s.urgent := rfl
@[simp] theorem State.waitUntil_normal (s : State) (d : Nat) : (s.waitUntil d).normal = s.normal := rfl
@[simp] theorem State.waitUntil_txQueue (s : State) (d : Nat) : (s.waitUntil d).txQueue = s.txQueue := rfl
@[simp] theorem State.waitUntil_txErrors (s : State) (d : Nat) : (s.waitUntil d).txErrors = s.txErrors := rfl
@[simp] theorem State.waitUntil_quietTimer (s : State) (d : Nat) : (s.waitUntil d).quietTimer = s.quietTimer := rfl
@[simp] theorem State.waitUntil_statusTimer (s : State) (d : Nat) : (s.waitUntil d).statusTimer = s.statusTimer := rfl
@[simp] theorem State.waitUntil_startQueue (s : State) (d : Nat) : (s.waitUntil d).startQueue = s.startQueue := rfl
@[simp] theorem State.waitUntil_spacingTimer (s : State) (d : Nat) : (s.waitUntil d).spacingTimer = s.spacingTimer := rfl
@[simp] theorem State.waitUntil_readout (s : State) (d : Nat) : (s.waitUntil d).readout = s.readout := rfl
@[simp] theorem State.waitUntil_staging (s : State) (d : Nat) : (s.waitUntil d).staging = s.staging := rfl
@[simp] theorem State.waitUntil_samples (s : State) (d : Nat) : (s.waitUntil d).samples = s.samples := rfl
@[simp] theorem State.waitUntil_volts (s : State) (d : Nat) : (s.waitUntil d).volts = s.volts := rfl
@[simp] theorem State.waitUntil_band (s : State) (d : Nat) : (s.waitUntil d).band = s.band := rfl
@[simp] theorem State.waitUntil_nextSample (s : State) (d : Nat) : (s.waitUntil d).nextSample = s.nextSample := rfl
@[simp] theorem State.waitUntil_holdLine (s : State) (d : Nat) : (s.waitUntil d).holdLine = s.holdLine := rfl
@[simp] theorem State.waitUntil_holdSampled (s : State) (d : Nat) : (s.waitUntil d).holdSampled = s.holdSampled := rfl
@[simp] theorem State.waitUntil_holdLimitTimer (s : State) (d : Nat) : (s.waitUntil d).holdLimitTimer = s.holdLimitTimer := rfl
@[simp] theorem State.waitUntil_limitExpired (s : State) (d : Nat) : (s.waitUntil d).limitExpired = s.limitExpired := rfl
@[simp] theorem State.waitUntil_incidents (s : State) (d : Nat) : (s.waitUntil d).incidents = s.incidents := rfl
@[simp] theorem State.waitUntil_nextRef (s : State) (d : Nat) : (s.waitUntil d).nextRef = s.nextRef := rfl
@[simp] theorem State.waitUntil_roughness (s : State) (d : Nat) : (s.waitUntil d).roughness = s.roughness := rfl
@[simp] theorem State.waitUntil_vehicleTimer (s : State) (d : Nat) : (s.waitUntil d).vehicleTimer = s.vehicleTimer := rfl
@[simp] theorem State.waitUntil_partState (s : State) (d : Nat) : (s.waitUntil d).partState = s.partState := rfl
@[simp] theorem State.waitUntil_configTimer (s : State) (d : Nat) : (s.waitUntil d).configTimer = s.configTimer := rfl

@[simp] theorem State.setCh_pending (s : State) (c : Chan) (x : Channel) : (s.setCh c x).pending = s.pending := rfl
@[simp] theorem State.setCh_clock (s : State) (c : Chan) (x : Channel) : (s.setCh c x).clock = s.clock := rfl
@[simp] theorem State.setCh_globals (s : State) (c : Chan) (x : Channel) : (s.setCh c x).globals = s.globals := rfl
@[simp] theorem State.setCh_slots (s : State) (c : Chan) (x : Channel) : (s.setCh c x).slots = s.slots := rfl
@[simp] theorem State.setCh_bitRate (s : State) (c : Chan) (x : Channel) : (s.setCh c x).bitRate = s.bitRate := rfl
@[simp] theorem State.setCh_urgent (s : State) (c : Chan) (x : Channel) : (s.setCh c x).urgent = s.urgent := rfl
@[simp] theorem State.setCh_normal (s : State) (c : Chan) (x : Channel) : (s.setCh c x).normal = s.normal := rfl
@[simp] theorem State.setCh_txQueue (s : State) (c : Chan) (x : Channel) : (s.setCh c x).txQueue = s.txQueue := rfl
@[simp] theorem State.setCh_txErrors (s : State) (c : Chan) (x : Channel) : (s.setCh c x).txErrors = s.txErrors := rfl
@[simp] theorem State.setCh_quietTimer (s : State) (c : Chan) (x : Channel) : (s.setCh c x).quietTimer = s.quietTimer := rfl
@[simp] theorem State.setCh_statusTimer (s : State) (c : Chan) (x : Channel) : (s.setCh c x).statusTimer = s.statusTimer := rfl
@[simp] theorem State.setCh_startQueue (s : State) (c : Chan) (x : Channel) : (s.setCh c x).startQueue = s.startQueue := rfl
@[simp] theorem State.setCh_spacingTimer (s : State) (c : Chan) (x : Channel) : (s.setCh c x).spacingTimer = s.spacingTimer := rfl
@[simp] theorem State.setCh_readout (s : State) (c : Chan) (x : Channel) : (s.setCh c x).readout = s.readout := rfl
@[simp] theorem State.setCh_staging (s : State) (c : Chan) (x : Channel) : (s.setCh c x).staging = s.staging := rfl
@[simp] theorem State.setCh_samples (s : State) (c : Chan) (x : Channel) : (s.setCh c x).samples = s.samples := rfl
@[simp] theorem State.setCh_volts (s : State) (c : Chan) (x : Channel) : (s.setCh c x).volts = s.volts := rfl
@[simp] theorem State.setCh_band (s : State) (c : Chan) (x : Channel) : (s.setCh c x).band = s.band := rfl
@[simp] theorem State.setCh_nextSample (s : State) (c : Chan) (x : Channel) : (s.setCh c x).nextSample = s.nextSample := rfl
@[simp] theorem State.setCh_holdLine (s : State) (c : Chan) (x : Channel) : (s.setCh c x).holdLine = s.holdLine := rfl
@[simp] theorem State.setCh_holdSampled (s : State) (c : Chan) (x : Channel) : (s.setCh c x).holdSampled = s.holdSampled := rfl
@[simp] theorem State.setCh_holdLimitTimer (s : State) (c : Chan) (x : Channel) : (s.setCh c x).holdLimitTimer = s.holdLimitTimer := rfl
@[simp] theorem State.setCh_limitExpired (s : State) (c : Chan) (x : Channel) : (s.setCh c x).limitExpired = s.limitExpired := rfl
@[simp] theorem State.setCh_incidents (s : State) (c : Chan) (x : Channel) : (s.setCh c x).incidents = s.incidents := rfl
@[simp] theorem State.setCh_nextRef (s : State) (c : Chan) (x : Channel) : (s.setCh c x).nextRef = s.nextRef := rfl
@[simp] theorem State.setCh_roughness (s : State) (c : Chan) (x : Channel) : (s.setCh c x).roughness = s.roughness := rfl
@[simp] theorem State.setCh_vehicleTimer (s : State) (c : Chan) (x : Channel) : (s.setCh c x).vehicleTimer = s.vehicleTimer := rfl
@[simp] theorem State.setCh_partState (s : State) (c : Chan) (x : Channel) : (s.setCh c x).partState = s.partState := rfl
@[simp] theorem State.setCh_configTimer (s : State) (c : Chan) (x : Channel) : (s.setCh c x).configTimer = s.configTimer := rfl

@[simp] theorem State.modCh_pending (s : State) (c : Chan) (g : Channel → Channel) : (s.modCh c g).pending = s.pending := rfl
@[simp] theorem State.modCh_clock (s : State) (c : Chan) (g : Channel → Channel) : (s.modCh c g).clock = s.clock := rfl
@[simp] theorem State.modCh_globals (s : State) (c : Chan) (g : Channel → Channel) : (s.modCh c g).globals = s.globals := rfl
@[simp] theorem State.modCh_slots (s : State) (c : Chan) (g : Channel → Channel) : (s.modCh c g).slots = s.slots := rfl
@[simp] theorem State.modCh_bitRate (s : State) (c : Chan) (g : Channel → Channel) : (s.modCh c g).bitRate = s.bitRate := rfl
@[simp] theorem State.modCh_urgent (s : State) (c : Chan) (g : Channel → Channel) : (s.modCh c g).urgent = s.urgent := rfl
@[simp] theorem State.modCh_normal (s : State) (c : Chan) (g : Channel → Channel) : (s.modCh c g).normal = s.normal := rfl
@[simp] theorem State.modCh_txQueue (s : State) (c : Chan) (g : Channel → Channel) : (s.modCh c g).txQueue = s.txQueue := rfl
@[simp] theorem State.modCh_txErrors (s : State) (c : Chan) (g : Channel → Channel) : (s.modCh c g).txErrors = s.txErrors := rfl
@[simp] theorem State.modCh_quietTimer (s : State) (c : Chan) (g : Channel → Channel) : (s.modCh c g).quietTimer = s.quietTimer := rfl
@[simp] theorem State.modCh_statusTimer (s : State) (c : Chan) (g : Channel → Channel) : (s.modCh c g).statusTimer = s.statusTimer := rfl
@[simp] theorem State.modCh_startQueue (s : State) (c : Chan) (g : Channel → Channel) : (s.modCh c g).startQueue = s.startQueue := rfl
@[simp] theorem State.modCh_spacingTimer (s : State) (c : Chan) (g : Channel → Channel) : (s.modCh c g).spacingTimer = s.spacingTimer := rfl
@[simp] theorem State.modCh_readout (s : State) (c : Chan) (g : Channel → Channel) : (s.modCh c g).readout = s.readout := rfl
@[simp] theorem State.modCh_staging (s : State) (c : Chan) (g : Channel → Channel) : (s.modCh c g).staging = s.staging := rfl
@[simp] theorem State.modCh_samples (s : State) (c : Chan) (g : Channel → Channel) : (s.modCh c g).samples = s.samples := rfl
@[simp] theorem State.modCh_volts (s : State) (c : Chan) (g : Channel → Channel) : (s.modCh c g).volts = s.volts := rfl
@[simp] theorem State.modCh_band (s : State) (c : Chan) (g : Channel → Channel) : (s.modCh c g).band = s.band := rfl
@[simp] theorem State.modCh_nextSample (s : State) (c : Chan) (g : Channel → Channel) : (s.modCh c g).nextSample = s.nextSample := rfl
@[simp] theorem State.modCh_holdLine (s : State) (c : Chan) (g : Channel → Channel) : (s.modCh c g).holdLine = s.holdLine := rfl
@[simp] theorem State.modCh_holdSampled (s : State) (c : Chan) (g : Channel → Channel) : (s.modCh c g).holdSampled = s.holdSampled := rfl
@[simp] theorem State.modCh_holdLimitTimer (s : State) (c : Chan) (g : Channel → Channel) : (s.modCh c g).holdLimitTimer = s.holdLimitTimer := rfl
@[simp] theorem State.modCh_limitExpired (s : State) (c : Chan) (g : Channel → Channel) : (s.modCh c g).limitExpired = s.limitExpired := rfl
@[simp] theorem State.modCh_incidents (s : State) (c : Chan) (g : Channel → Channel) : (s.modCh c g).incidents = s.incidents := rfl
@[simp] theorem State.modCh_nextRef (s : State) (c : Chan) (g : Channel → Channel) : (s.modCh c g).nextRef = s.nextRef := rfl
@[simp] theorem State.modCh_roughness (s : State) (c : Chan) (g : Channel → Channel) : (s.modCh c g).roughness = s.roughness := rfl
@[simp] theorem State.modCh_vehicleTimer (s : State) (c : Chan) (g : Channel → Channel) : (s.modCh c g).vehicleTimer = s.vehicleTimer := rfl
@[simp] theorem State.modCh_partState (s : State) (c : Chan) (g : Channel → Channel) : (s.modCh c g).partState = s.partState := rfl
@[simp] theorem State.modCh_configTimer (s : State) (c : Chan) (g : Channel → Channel) : (s.modCh c g).configTimer = s.configTimer := rfl

/-! ### setMState -/

@[simp] theorem Channel.setMState_tune (c : Channel) (m : MotionState) : (c.setMState m).tune = c.tune := rfl
@[simp] theorem Channel.setMState_hallA (c : Channel) (m : MotionState) : (c.setMState m).hallA = c.hallA := rfl
@[simp] theorem Channel.setMState_hallB (c : Channel) (m : MotionState) : (c.setMState m).hallB = c.hallB := rfl
@[simp] theorem Channel.setMState_hallSampled (c : Channel) (m : MotionState) : (c.setMState m).hallSampled = c.hallSampled := rfl
@[simp] theorem Channel.setMState_position (c : Channel) (m : MotionState) : (c.setMState m).position = c.position := rfl
@[simp] theorem Channel.setMState_datum (c : Channel) (m : MotionState) : (c.setMState m).datum = c.datum := rfl
@[simp] theorem Channel.setMState_edged (c : Channel) (m : MotionState) : (c.setMState m).edged = c.edged := rfl
@[simp] theorem Channel.setMState_lastEdge (c : Channel) (m : MotionState) : (c.setMState m).lastEdge = c.lastEdge := rfl
@[simp] theorem Channel.setMState_phase (c : Channel) (m : MotionState) : (c.setMState m).phase = c.phase := rfl
@[simp] theorem Channel.setMState_stepFaults (c : Channel) (m : MotionState) : (c.setMState m).stepFaults = c.stepFaults := rfl
@[simp] theorem Channel.setMState_reverseFaults (c : Channel) (m : MotionState) : (c.setMState m).reverseFaults = c.reverseFaults := rfl
@[simp] theorem Channel.setMState_speedFaults (c : Channel) (m : MotionState) : (c.setMState m).speedFaults = c.speedFaults := rfl
@[simp] theorem Channel.setMState_summary (c : Channel) (m : MotionState) : (c.setMState m).summary = c.summary := rfl
@[simp] theorem Channel.setMState_ring (c : Channel) (m : MotionState) : (c.setMState m).ring = c.ring := rfl
@[simp] theorem Channel.setMState_settled (c : Channel) (m : MotionState) : (c.setMState m).settled = c.settled := rfl
@[simp] theorem Channel.setMState_stallTimer (c : Channel) (m : MotionState) : (c.setMState m).stallTimer = c.stallTimer := rfl
@[simp] theorem Channel.setMState_lastF (c : Channel) (m : MotionState) : (c.setMState m).lastF = c.lastF := rfl
@[simp] theorem Channel.setMState_lastT (c : Channel) (m : MotionState) : (c.setMState m).lastT = c.lastT := rfl
@[simp] theorem Channel.setMState_strip (c : Channel) (m : MotionState) : (c.setMState m).strip = c.strip := rfl
@[simp] theorem Channel.setMState_stripSampled (c : Channel) (m : MotionState) : (c.setMState m).stripSampled = c.stripSampled := rfl
@[simp] theorem Channel.setMState_zones (c : Channel) (m : MotionState) : (c.setMState m).zones = c.zones := rfl
@[simp] theorem Channel.setMState_accum (c : Channel) (m : MotionState) : (c.setMState m).accum = c.accum := rfl
@[simp] theorem Channel.setMState_mstate (c : Channel) (m : MotionState) : (c.setMState m).mstate = m := rfl
@[simp] theorem Channel.setMState_motion (c : Channel) (m : MotionState) : (c.setMState m).motion = c.motion := rfl
@[simp] theorem Channel.setMState_stopCause (c : Channel) (m : MotionState) : (c.setMState m).stopCause = c.stopCause := rfl
@[simp] theorem Channel.setMState_bridge (c : Channel) (m : MotionState) : (c.setMState m).bridge = c.bridge := rfl
@[simp] theorem Channel.setMState_switched1 (c : Channel) (m : MotionState) : (c.setMState m).switched1 = c.switched1 := rfl
@[simp] theorem Channel.setMState_switched2 (c : Channel) (m : MotionState) : (c.setMState m).switched2 = c.switched2 := rfl
@[simp] theorem Channel.setMState_duty (c : Channel) (m : MotionState) : (c.setMState m).duty = c.duty := rfl
@[simp] theorem Channel.setMState_runDuty (c : Channel) (m : MotionState) : (c.setMState m).runDuty = c.runDuty := rfl
@[simp] theorem Channel.setMState_ramp (c : Channel) (m : MotionState) : (c.setMState m).ramp = c.ramp := rfl
@[simp] theorem Channel.setMState_brakeTimer (c : Channel) (m : MotionState) : (c.setMState m).brakeTimer = c.brakeTimer := rfl
@[simp] theorem Channel.setMState_runSince (c : Channel) (m : MotionState) : (c.setMState m).runSince = c.runSince := rfl
@[simp] theorem Channel.setMState_owner (c : Channel) (m : MotionState) : (c.setMState m).owner = c.owner := rfl
@[simp] theorem Channel.setMState_holdTimer (c : Channel) (m : MotionState) : (c.setMState m).holdTimer = c.holdTimer := rfl
@[simp] theorem Channel.setMState_latches (c : Channel) (m : MotionState) : (c.setMState m).latches = c.latches := rfl
@[simp] theorem Channel.setMState_allowed (c : Channel) (m : MotionState) : (c.setMState m).allowed = c.allowed := rfl
@[simp] theorem Channel.setMState_strikes (c : Channel) (m : MotionState) : (c.setMState m).strikes = c.strikes := rfl
@[simp] theorem Channel.setMState_strikeTimer (c : Channel) (m : MotionState) : (c.setMState m).strikeTimer = c.strikeTimer := rfl

/-! ### setDatum -/

@[simp] theorem Channel.setDatum_tune (c : Channel) (d : Datum) : (c.setDatum d).tune = c.tune := rfl
@[simp] theorem Channel.setDatum_hallA (c : Channel) (d : Datum) : (c.setDatum d).hallA = c.hallA := rfl
@[simp] theorem Channel.setDatum_hallB (c : Channel) (d : Datum) : (c.setDatum d).hallB = c.hallB := rfl
@[simp] theorem Channel.setDatum_hallSampled (c : Channel) (d : Datum) : (c.setDatum d).hallSampled = c.hallSampled := rfl
@[simp] theorem Channel.setDatum_position (c : Channel) (d : Datum) : (c.setDatum d).position = c.position := rfl
@[simp] theorem Channel.setDatum_datum (c : Channel) (d : Datum) : (c.setDatum d).datum = d := rfl
@[simp] theorem Channel.setDatum_edged (c : Channel) (d : Datum) : (c.setDatum d).edged = c.edged := rfl
@[simp] theorem Channel.setDatum_lastEdge (c : Channel) (d : Datum) : (c.setDatum d).lastEdge = c.lastEdge := rfl
@[simp] theorem Channel.setDatum_phase (c : Channel) (d : Datum) : (c.setDatum d).phase = c.phase := rfl
@[simp] theorem Channel.setDatum_stepFaults (c : Channel) (d : Datum) : (c.setDatum d).stepFaults = c.stepFaults := rfl
@[simp] theorem Channel.setDatum_reverseFaults (c : Channel) (d : Datum) : (c.setDatum d).reverseFaults = c.reverseFaults := rfl
@[simp] theorem Channel.setDatum_speedFaults (c : Channel) (d : Datum) : (c.setDatum d).speedFaults = c.speedFaults := rfl
@[simp] theorem Channel.setDatum_summary (c : Channel) (d : Datum) : (c.setDatum d).summary = c.summary := rfl
@[simp] theorem Channel.setDatum_ring (c : Channel) (d : Datum) : (c.setDatum d).ring = c.ring := rfl
@[simp] theorem Channel.setDatum_settled (c : Channel) (d : Datum) : (c.setDatum d).settled = c.settled := rfl
@[simp] theorem Channel.setDatum_stallTimer (c : Channel) (d : Datum) : (c.setDatum d).stallTimer = c.stallTimer := rfl
@[simp] theorem Channel.setDatum_lastF (c : Channel) (d : Datum) : (c.setDatum d).lastF = c.lastF := rfl
@[simp] theorem Channel.setDatum_lastT (c : Channel) (d : Datum) : (c.setDatum d).lastT = c.lastT := rfl
@[simp] theorem Channel.setDatum_strip (c : Channel) (d : Datum) : (c.setDatum d).strip = c.strip := rfl
@[simp] theorem Channel.setDatum_stripSampled (c : Channel) (d : Datum) : (c.setDatum d).stripSampled = c.stripSampled := rfl
@[simp] theorem Channel.setDatum_zones (c : Channel) (d : Datum) : (c.setDatum d).zones = c.zones := rfl
@[simp] theorem Channel.setDatum_accum (c : Channel) (d : Datum) : (c.setDatum d).accum = c.accum := rfl
@[simp] theorem Channel.setDatum_mstate (c : Channel) (d : Datum) : (c.setDatum d).mstate = c.mstate := rfl
@[simp] theorem Channel.setDatum_motion (c : Channel) (d : Datum) : (c.setDatum d).motion = c.motion := rfl
@[simp] theorem Channel.setDatum_stopCause (c : Channel) (d : Datum) : (c.setDatum d).stopCause = c.stopCause := rfl
@[simp] theorem Channel.setDatum_bridge (c : Channel) (d : Datum) : (c.setDatum d).bridge = c.bridge := rfl
@[simp] theorem Channel.setDatum_switched1 (c : Channel) (d : Datum) : (c.setDatum d).switched1 = c.switched1 := rfl
@[simp] theorem Channel.setDatum_switched2 (c : Channel) (d : Datum) : (c.setDatum d).switched2 = c.switched2 := rfl
@[simp] theorem Channel.setDatum_duty (c : Channel) (d : Datum) : (c.setDatum d).duty = c.duty := rfl
@[simp] theorem Channel.setDatum_runDuty (c : Channel) (d : Datum) : (c.setDatum d).runDuty = c.runDuty := rfl
@[simp] theorem Channel.setDatum_ramp (c : Channel) (d : Datum) : (c.setDatum d).ramp = c.ramp := rfl
@[simp] theorem Channel.setDatum_brakeTimer (c : Channel) (d : Datum) : (c.setDatum d).brakeTimer = c.brakeTimer := rfl
@[simp] theorem Channel.setDatum_runSince (c : Channel) (d : Datum) : (c.setDatum d).runSince = c.runSince := rfl
@[simp] theorem Channel.setDatum_owner (c : Channel) (d : Datum) : (c.setDatum d).owner = c.owner := rfl
@[simp] theorem Channel.setDatum_holdTimer (c : Channel) (d : Datum) : (c.setDatum d).holdTimer = c.holdTimer := rfl
@[simp] theorem Channel.setDatum_latches (c : Channel) (d : Datum) : (c.setDatum d).latches = c.latches := rfl
@[simp] theorem Channel.setDatum_allowed (c : Channel) (d : Datum) : (c.setDatum d).allowed = c.allowed := rfl
@[simp] theorem Channel.setDatum_strikes (c : Channel) (d : Datum) : (c.setDatum d).strikes = c.strikes := rfl
@[simp] theorem Channel.setDatum_strikeTimer (c : Channel) (d : Datum) : (c.setDatum d).strikeTimer = c.strikeTimer := rfl

/-! ### setSummary -/

@[simp] theorem Channel.setSummary_tune (c : Channel) (f : FaultSet) : (c.setSummary f).tune = c.tune := rfl
@[simp] theorem Channel.setSummary_hallA (c : Channel) (f : FaultSet) : (c.setSummary f).hallA = c.hallA := rfl
@[simp] theorem Channel.setSummary_hallB (c : Channel) (f : FaultSet) : (c.setSummary f).hallB = c.hallB := rfl
@[simp] theorem Channel.setSummary_hallSampled (c : Channel) (f : FaultSet) : (c.setSummary f).hallSampled = c.hallSampled := rfl
@[simp] theorem Channel.setSummary_position (c : Channel) (f : FaultSet) : (c.setSummary f).position = c.position := rfl
@[simp] theorem Channel.setSummary_datum (c : Channel) (f : FaultSet) : (c.setSummary f).datum = c.datum := rfl
@[simp] theorem Channel.setSummary_edged (c : Channel) (f : FaultSet) : (c.setSummary f).edged = c.edged := rfl
@[simp] theorem Channel.setSummary_lastEdge (c : Channel) (f : FaultSet) : (c.setSummary f).lastEdge = c.lastEdge := rfl
@[simp] theorem Channel.setSummary_phase (c : Channel) (f : FaultSet) : (c.setSummary f).phase = c.phase := rfl
@[simp] theorem Channel.setSummary_stepFaults (c : Channel) (f : FaultSet) : (c.setSummary f).stepFaults = c.stepFaults := rfl
@[simp] theorem Channel.setSummary_reverseFaults (c : Channel) (f : FaultSet) : (c.setSummary f).reverseFaults = c.reverseFaults := rfl
@[simp] theorem Channel.setSummary_speedFaults (c : Channel) (f : FaultSet) : (c.setSummary f).speedFaults = c.speedFaults := rfl
@[simp] theorem Channel.setSummary_summary (c : Channel) (f : FaultSet) : (c.setSummary f).summary = f := rfl
@[simp] theorem Channel.setSummary_ring (c : Channel) (f : FaultSet) : (c.setSummary f).ring = c.ring := rfl
@[simp] theorem Channel.setSummary_settled (c : Channel) (f : FaultSet) : (c.setSummary f).settled = c.settled := rfl
@[simp] theorem Channel.setSummary_trips (c : Channel) (f : FaultSet) : (c.setSummary f).trips = c.trips := rfl
@[simp] theorem Channel.setSummary_stallTimer (c : Channel) (f : FaultSet) : (c.setSummary f).stallTimer = c.stallTimer := rfl
@[simp] theorem Channel.setSummary_lastF (c : Channel) (f : FaultSet) : (c.setSummary f).lastF = c.lastF := rfl
@[simp] theorem Channel.setSummary_lastT (c : Channel) (f : FaultSet) : (c.setSummary f).lastT = c.lastT := rfl
@[simp] theorem Channel.setSummary_strip (c : Channel) (f : FaultSet) : (c.setSummary f).strip = c.strip := rfl
@[simp] theorem Channel.setSummary_stripSampled (c : Channel) (f : FaultSet) : (c.setSummary f).stripSampled = c.stripSampled := rfl
@[simp] theorem Channel.setSummary_zones (c : Channel) (f : FaultSet) : (c.setSummary f).zones = c.zones := rfl
@[simp] theorem Channel.setSummary_accum (c : Channel) (f : FaultSet) : (c.setSummary f).accum = c.accum := rfl
@[simp] theorem Channel.setSummary_mstate (c : Channel) (f : FaultSet) : (c.setSummary f).mstate = c.mstate := rfl
@[simp] theorem Channel.setSummary_motion (c : Channel) (f : FaultSet) : (c.setSummary f).motion = c.motion := rfl
@[simp] theorem Channel.setSummary_stopCause (c : Channel) (f : FaultSet) : (c.setSummary f).stopCause = c.stopCause := rfl
@[simp] theorem Channel.setSummary_bridge (c : Channel) (f : FaultSet) : (c.setSummary f).bridge = c.bridge := rfl
@[simp] theorem Channel.setSummary_switched1 (c : Channel) (f : FaultSet) : (c.setSummary f).switched1 = c.switched1 := rfl
@[simp] theorem Channel.setSummary_switched2 (c : Channel) (f : FaultSet) : (c.setSummary f).switched2 = c.switched2 := rfl
@[simp] theorem Channel.setSummary_duty (c : Channel) (f : FaultSet) : (c.setSummary f).duty = c.duty := rfl
@[simp] theorem Channel.setSummary_runDuty (c : Channel) (f : FaultSet) : (c.setSummary f).runDuty = c.runDuty := rfl
@[simp] theorem Channel.setSummary_ramp (c : Channel) (f : FaultSet) : (c.setSummary f).ramp = c.ramp := rfl
@[simp] theorem Channel.setSummary_brakeTimer (c : Channel) (f : FaultSet) : (c.setSummary f).brakeTimer = c.brakeTimer := rfl
@[simp] theorem Channel.setSummary_runSince (c : Channel) (f : FaultSet) : (c.setSummary f).runSince = c.runSince := rfl
@[simp] theorem Channel.setSummary_owner (c : Channel) (f : FaultSet) : (c.setSummary f).owner = c.owner := rfl
@[simp] theorem Channel.setSummary_holdTimer (c : Channel) (f : FaultSet) : (c.setSummary f).holdTimer = c.holdTimer := rfl
@[simp] theorem Channel.setSummary_latches (c : Channel) (f : FaultSet) : (c.setSummary f).latches = c.latches := rfl
@[simp] theorem Channel.setSummary_allowed (c : Channel) (f : FaultSet) : (c.setSummary f).allowed = c.allowed := rfl
@[simp] theorem Channel.setSummary_strikes (c : Channel) (f : FaultSet) : (c.setSummary f).strikes = c.strikes := rfl
@[simp] theorem Channel.setSummary_strikeTimer (c : Channel) (f : FaultSet) : (c.setSummary f).strikeTimer = c.strikeTimer := rfl

/-! ### setStrikes -/

@[simp] theorem Channel.setStrikes_tune (c : Channel) (n : Nat) : (c.setStrikes n).tune = c.tune := rfl
@[simp] theorem Channel.setStrikes_hallA (c : Channel) (n : Nat) : (c.setStrikes n).hallA = c.hallA := rfl
@[simp] theorem Channel.setStrikes_hallB (c : Channel) (n : Nat) : (c.setStrikes n).hallB = c.hallB := rfl
@[simp] theorem Channel.setStrikes_hallSampled (c : Channel) (n : Nat) : (c.setStrikes n).hallSampled = c.hallSampled := rfl
@[simp] theorem Channel.setStrikes_position (c : Channel) (n : Nat) : (c.setStrikes n).position = c.position := rfl
@[simp] theorem Channel.setStrikes_datum (c : Channel) (n : Nat) : (c.setStrikes n).datum = c.datum := rfl
@[simp] theorem Channel.setStrikes_edged (c : Channel) (n : Nat) : (c.setStrikes n).edged = c.edged := rfl
@[simp] theorem Channel.setStrikes_lastEdge (c : Channel) (n : Nat) : (c.setStrikes n).lastEdge = c.lastEdge := rfl
@[simp] theorem Channel.setStrikes_phase (c : Channel) (n : Nat) : (c.setStrikes n).phase = c.phase := rfl
@[simp] theorem Channel.setStrikes_stepFaults (c : Channel) (n : Nat) : (c.setStrikes n).stepFaults = c.stepFaults := rfl
@[simp] theorem Channel.setStrikes_reverseFaults (c : Channel) (n : Nat) : (c.setStrikes n).reverseFaults = c.reverseFaults := rfl
@[simp] theorem Channel.setStrikes_speedFaults (c : Channel) (n : Nat) : (c.setStrikes n).speedFaults = c.speedFaults := rfl
@[simp] theorem Channel.setStrikes_summary (c : Channel) (n : Nat) : (c.setStrikes n).summary = c.summary := rfl
@[simp] theorem Channel.setStrikes_ring (c : Channel) (n : Nat) : (c.setStrikes n).ring = c.ring := rfl
@[simp] theorem Channel.setStrikes_settled (c : Channel) (n : Nat) : (c.setStrikes n).settled = c.settled := rfl
@[simp] theorem Channel.setStrikes_trips (c : Channel) (n : Nat) : (c.setStrikes n).trips = c.trips := rfl
@[simp] theorem Channel.setStrikes_stallTimer (c : Channel) (n : Nat) : (c.setStrikes n).stallTimer = c.stallTimer := rfl
@[simp] theorem Channel.setStrikes_lastF (c : Channel) (n : Nat) : (c.setStrikes n).lastF = c.lastF := rfl
@[simp] theorem Channel.setStrikes_lastT (c : Channel) (n : Nat) : (c.setStrikes n).lastT = c.lastT := rfl
@[simp] theorem Channel.setStrikes_strip (c : Channel) (n : Nat) : (c.setStrikes n).strip = c.strip := rfl
@[simp] theorem Channel.setStrikes_stripSampled (c : Channel) (n : Nat) : (c.setStrikes n).stripSampled = c.stripSampled := rfl
@[simp] theorem Channel.setStrikes_zones (c : Channel) (n : Nat) : (c.setStrikes n).zones = c.zones := rfl
@[simp] theorem Channel.setStrikes_accum (c : Channel) (n : Nat) : (c.setStrikes n).accum = c.accum := rfl
@[simp] theorem Channel.setStrikes_mstate (c : Channel) (n : Nat) : (c.setStrikes n).mstate = c.mstate := rfl
@[simp] theorem Channel.setStrikes_motion (c : Channel) (n : Nat) : (c.setStrikes n).motion = c.motion := rfl
@[simp] theorem Channel.setStrikes_stopCause (c : Channel) (n : Nat) : (c.setStrikes n).stopCause = c.stopCause := rfl
@[simp] theorem Channel.setStrikes_bridge (c : Channel) (n : Nat) : (c.setStrikes n).bridge = c.bridge := rfl
@[simp] theorem Channel.setStrikes_switched1 (c : Channel) (n : Nat) : (c.setStrikes n).switched1 = c.switched1 := rfl
@[simp] theorem Channel.setStrikes_switched2 (c : Channel) (n : Nat) : (c.setStrikes n).switched2 = c.switched2 := rfl
@[simp] theorem Channel.setStrikes_duty (c : Channel) (n : Nat) : (c.setStrikes n).duty = c.duty := rfl
@[simp] theorem Channel.setStrikes_runDuty (c : Channel) (n : Nat) : (c.setStrikes n).runDuty = c.runDuty := rfl
@[simp] theorem Channel.setStrikes_ramp (c : Channel) (n : Nat) : (c.setStrikes n).ramp = c.ramp := rfl
@[simp] theorem Channel.setStrikes_brakeTimer (c : Channel) (n : Nat) : (c.setStrikes n).brakeTimer = c.brakeTimer := rfl
@[simp] theorem Channel.setStrikes_runSince (c : Channel) (n : Nat) : (c.setStrikes n).runSince = c.runSince := rfl
@[simp] theorem Channel.setStrikes_owner (c : Channel) (n : Nat) : (c.setStrikes n).owner = c.owner := rfl
@[simp] theorem Channel.setStrikes_holdTimer (c : Channel) (n : Nat) : (c.setStrikes n).holdTimer = c.holdTimer := rfl
@[simp] theorem Channel.setStrikes_latches (c : Channel) (n : Nat) : (c.setStrikes n).latches = c.latches := rfl
@[simp] theorem Channel.setStrikes_allowed (c : Channel) (n : Nat) : (c.setStrikes n).allowed = c.allowed := rfl
@[simp] theorem Channel.setStrikes_strikes (c : Channel) (n : Nat) : (c.setStrikes n).strikes = n := rfl
@[simp] theorem Channel.setStrikes_strikeTimer (c : Channel) (n : Nat) : (c.setStrikes n).strikeTimer = c.strikeTimer := rfl

/-! ### setOwner -/

@[simp] theorem Channel.setOwner_tune (c : Channel) (o : Owner) : (c.setOwner o).tune = c.tune := rfl
@[simp] theorem Channel.setOwner_hallA (c : Channel) (o : Owner) : (c.setOwner o).hallA = c.hallA := rfl
@[simp] theorem Channel.setOwner_hallB (c : Channel) (o : Owner) : (c.setOwner o).hallB = c.hallB := rfl
@[simp] theorem Channel.setOwner_hallSampled (c : Channel) (o : Owner) : (c.setOwner o).hallSampled = c.hallSampled := rfl
@[simp] theorem Channel.setOwner_position (c : Channel) (o : Owner) : (c.setOwner o).position = c.position := rfl
@[simp] theorem Channel.setOwner_datum (c : Channel) (o : Owner) : (c.setOwner o).datum = c.datum := rfl
@[simp] theorem Channel.setOwner_edged (c : Channel) (o : Owner) : (c.setOwner o).edged = c.edged := rfl
@[simp] theorem Channel.setOwner_lastEdge (c : Channel) (o : Owner) : (c.setOwner o).lastEdge = c.lastEdge := rfl
@[simp] theorem Channel.setOwner_phase (c : Channel) (o : Owner) : (c.setOwner o).phase = c.phase := rfl
@[simp] theorem Channel.setOwner_stepFaults (c : Channel) (o : Owner) : (c.setOwner o).stepFaults = c.stepFaults := rfl
@[simp] theorem Channel.setOwner_reverseFaults (c : Channel) (o : Owner) : (c.setOwner o).reverseFaults = c.reverseFaults := rfl
@[simp] theorem Channel.setOwner_speedFaults (c : Channel) (o : Owner) : (c.setOwner o).speedFaults = c.speedFaults := rfl
@[simp] theorem Channel.setOwner_summary (c : Channel) (o : Owner) : (c.setOwner o).summary = c.summary := rfl
@[simp] theorem Channel.setOwner_ring (c : Channel) (o : Owner) : (c.setOwner o).ring = c.ring := rfl
@[simp] theorem Channel.setOwner_settled (c : Channel) (o : Owner) : (c.setOwner o).settled = c.settled := rfl
@[simp] theorem Channel.setOwner_trips (c : Channel) (o : Owner) : (c.setOwner o).trips = c.trips := rfl
@[simp] theorem Channel.setOwner_stallTimer (c : Channel) (o : Owner) : (c.setOwner o).stallTimer = c.stallTimer := rfl
@[simp] theorem Channel.setOwner_lastF (c : Channel) (o : Owner) : (c.setOwner o).lastF = c.lastF := rfl
@[simp] theorem Channel.setOwner_lastT (c : Channel) (o : Owner) : (c.setOwner o).lastT = c.lastT := rfl
@[simp] theorem Channel.setOwner_strip (c : Channel) (o : Owner) : (c.setOwner o).strip = c.strip := rfl
@[simp] theorem Channel.setOwner_stripSampled (c : Channel) (o : Owner) : (c.setOwner o).stripSampled = c.stripSampled := rfl
@[simp] theorem Channel.setOwner_zones (c : Channel) (o : Owner) : (c.setOwner o).zones = c.zones := rfl
@[simp] theorem Channel.setOwner_accum (c : Channel) (o : Owner) : (c.setOwner o).accum = c.accum := rfl
@[simp] theorem Channel.setOwner_mstate (c : Channel) (o : Owner) : (c.setOwner o).mstate = c.mstate := rfl
@[simp] theorem Channel.setOwner_motion (c : Channel) (o : Owner) : (c.setOwner o).motion = c.motion := rfl
@[simp] theorem Channel.setOwner_stopCause (c : Channel) (o : Owner) : (c.setOwner o).stopCause = c.stopCause := rfl
@[simp] theorem Channel.setOwner_bridge (c : Channel) (o : Owner) : (c.setOwner o).bridge = c.bridge := rfl
@[simp] theorem Channel.setOwner_switched1 (c : Channel) (o : Owner) : (c.setOwner o).switched1 = c.switched1 := rfl
@[simp] theorem Channel.setOwner_switched2 (c : Channel) (o : Owner) : (c.setOwner o).switched2 = c.switched2 := rfl
@[simp] theorem Channel.setOwner_duty (c : Channel) (o : Owner) : (c.setOwner o).duty = c.duty := rfl
@[simp] theorem Channel.setOwner_runDuty (c : Channel) (o : Owner) : (c.setOwner o).runDuty = c.runDuty := rfl
@[simp] theorem Channel.setOwner_ramp (c : Channel) (o : Owner) : (c.setOwner o).ramp = c.ramp := rfl
@[simp] theorem Channel.setOwner_brakeTimer (c : Channel) (o : Owner) : (c.setOwner o).brakeTimer = c.brakeTimer := rfl
@[simp] theorem Channel.setOwner_runSince (c : Channel) (o : Owner) : (c.setOwner o).runSince = c.runSince := rfl
@[simp] theorem Channel.setOwner_owner (c : Channel) (o : Owner) : (c.setOwner o).owner = some o := rfl
@[simp] theorem Channel.setOwner_holdTimer (c : Channel) (o : Owner) : (c.setOwner o).holdTimer = c.holdTimer := rfl
@[simp] theorem Channel.setOwner_latches (c : Channel) (o : Owner) : (c.setOwner o).latches = c.latches := rfl
@[simp] theorem Channel.setOwner_allowed (c : Channel) (o : Owner) : (c.setOwner o).allowed = c.allowed := rfl
@[simp] theorem Channel.setOwner_strikes (c : Channel) (o : Owner) : (c.setOwner o).strikes = c.strikes := rfl
@[simp] theorem Channel.setOwner_strikeTimer (c : Channel) (o : Owner) : (c.setOwner o).strikeTimer = c.strikeTimer := rfl

/-! ### mapMotion -/

@[simp] theorem Channel.mapMotion_tune (c : Channel) (f : Motion → Motion) : (c.mapMotion f).tune = c.tune := rfl
@[simp] theorem Channel.mapMotion_hallA (c : Channel) (f : Motion → Motion) : (c.mapMotion f).hallA = c.hallA := rfl
@[simp] theorem Channel.mapMotion_hallB (c : Channel) (f : Motion → Motion) : (c.mapMotion f).hallB = c.hallB := rfl
@[simp] theorem Channel.mapMotion_hallSampled (c : Channel) (f : Motion → Motion) : (c.mapMotion f).hallSampled = c.hallSampled := rfl
@[simp] theorem Channel.mapMotion_position (c : Channel) (f : Motion → Motion) : (c.mapMotion f).position = c.position := rfl
@[simp] theorem Channel.mapMotion_datum (c : Channel) (f : Motion → Motion) : (c.mapMotion f).datum = c.datum := rfl
@[simp] theorem Channel.mapMotion_edged (c : Channel) (f : Motion → Motion) : (c.mapMotion f).edged = c.edged := rfl
@[simp] theorem Channel.mapMotion_lastEdge (c : Channel) (f : Motion → Motion) : (c.mapMotion f).lastEdge = c.lastEdge := rfl
@[simp] theorem Channel.mapMotion_phase (c : Channel) (f : Motion → Motion) : (c.mapMotion f).phase = c.phase := rfl
@[simp] theorem Channel.mapMotion_stepFaults (c : Channel) (f : Motion → Motion) : (c.mapMotion f).stepFaults = c.stepFaults := rfl
@[simp] theorem Channel.mapMotion_reverseFaults (c : Channel) (f : Motion → Motion) : (c.mapMotion f).reverseFaults = c.reverseFaults := rfl
@[simp] theorem Channel.mapMotion_speedFaults (c : Channel) (f : Motion → Motion) : (c.mapMotion f).speedFaults = c.speedFaults := rfl
@[simp] theorem Channel.mapMotion_summary (c : Channel) (f : Motion → Motion) : (c.mapMotion f).summary = c.summary := rfl
@[simp] theorem Channel.mapMotion_ring (c : Channel) (f : Motion → Motion) : (c.mapMotion f).ring = c.ring := rfl
@[simp] theorem Channel.mapMotion_settled (c : Channel) (f : Motion → Motion) : (c.mapMotion f).settled = c.settled := rfl
@[simp] theorem Channel.mapMotion_trips (c : Channel) (f : Motion → Motion) : (c.mapMotion f).trips = c.trips := rfl
@[simp] theorem Channel.mapMotion_stallTimer (c : Channel) (f : Motion → Motion) : (c.mapMotion f).stallTimer = c.stallTimer := rfl
@[simp] theorem Channel.mapMotion_lastF (c : Channel) (f : Motion → Motion) : (c.mapMotion f).lastF = c.lastF := rfl
@[simp] theorem Channel.mapMotion_lastT (c : Channel) (f : Motion → Motion) : (c.mapMotion f).lastT = c.lastT := rfl
@[simp] theorem Channel.mapMotion_strip (c : Channel) (f : Motion → Motion) : (c.mapMotion f).strip = c.strip := rfl
@[simp] theorem Channel.mapMotion_stripSampled (c : Channel) (f : Motion → Motion) : (c.mapMotion f).stripSampled = c.stripSampled := rfl
@[simp] theorem Channel.mapMotion_zones (c : Channel) (f : Motion → Motion) : (c.mapMotion f).zones = c.zones := rfl
@[simp] theorem Channel.mapMotion_accum (c : Channel) (f : Motion → Motion) : (c.mapMotion f).accum = c.accum := rfl
@[simp] theorem Channel.mapMotion_mstate (c : Channel) (f : Motion → Motion) : (c.mapMotion f).mstate = c.mstate := rfl
@[simp] theorem Channel.mapMotion_motion (c : Channel) (f : Motion → Motion) : (c.mapMotion f).motion = c.motion.map f := rfl
@[simp] theorem Channel.mapMotion_stopCause (c : Channel) (f : Motion → Motion) : (c.mapMotion f).stopCause = c.stopCause := rfl
@[simp] theorem Channel.mapMotion_bridge (c : Channel) (f : Motion → Motion) : (c.mapMotion f).bridge = c.bridge := rfl
@[simp] theorem Channel.mapMotion_switched1 (c : Channel) (f : Motion → Motion) : (c.mapMotion f).switched1 = c.switched1 := rfl
@[simp] theorem Channel.mapMotion_switched2 (c : Channel) (f : Motion → Motion) : (c.mapMotion f).switched2 = c.switched2 := rfl
@[simp] theorem Channel.mapMotion_duty (c : Channel) (f : Motion → Motion) : (c.mapMotion f).duty = c.duty := rfl
@[simp] theorem Channel.mapMotion_runDuty (c : Channel) (f : Motion → Motion) : (c.mapMotion f).runDuty = c.runDuty := rfl
@[simp] theorem Channel.mapMotion_ramp (c : Channel) (f : Motion → Motion) : (c.mapMotion f).ramp = c.ramp := rfl
@[simp] theorem Channel.mapMotion_brakeTimer (c : Channel) (f : Motion → Motion) : (c.mapMotion f).brakeTimer = c.brakeTimer := rfl
@[simp] theorem Channel.mapMotion_runSince (c : Channel) (f : Motion → Motion) : (c.mapMotion f).runSince = c.runSince := rfl
@[simp] theorem Channel.mapMotion_owner (c : Channel) (f : Motion → Motion) : (c.mapMotion f).owner = c.owner := rfl
@[simp] theorem Channel.mapMotion_holdTimer (c : Channel) (f : Motion → Motion) : (c.mapMotion f).holdTimer = c.holdTimer := rfl
@[simp] theorem Channel.mapMotion_latches (c : Channel) (f : Motion → Motion) : (c.mapMotion f).latches = c.latches := rfl
@[simp] theorem Channel.mapMotion_allowed (c : Channel) (f : Motion → Motion) : (c.mapMotion f).allowed = c.allowed := rfl
@[simp] theorem Channel.mapMotion_strikes (c : Channel) (f : Motion → Motion) : (c.mapMotion f).strikes = c.strikes := rfl
@[simp] theorem Channel.mapMotion_strikeTimer (c : Channel) (f : Motion → Motion) : (c.mapMotion f).strikeTimer = c.strikeTimer := rfl
@[simp] theorem Channel.mapMotion_statusDue (c : Channel) (f : Motion → Motion) : (c.mapMotion f).statusDue = c.statusDue := rfl

/-! ### zeroAccum -/

@[simp] theorem Channel.zeroAccum_tune (c : Channel) : (c.zeroAccum).tune = c.tune := rfl
@[simp] theorem Channel.zeroAccum_hallA (c : Channel) : (c.zeroAccum).hallA = c.hallA := rfl
@[simp] theorem Channel.zeroAccum_hallB (c : Channel) : (c.zeroAccum).hallB = c.hallB := rfl
@[simp] theorem Channel.zeroAccum_hallSampled (c : Channel) : (c.zeroAccum).hallSampled = c.hallSampled := rfl
@[simp] theorem Channel.zeroAccum_position (c : Channel) : (c.zeroAccum).position = c.position := rfl
@[simp] theorem Channel.zeroAccum_datum (c : Channel) : (c.zeroAccum).datum = c.datum := rfl
@[simp] theorem Channel.zeroAccum_edged (c : Channel) : (c.zeroAccum).edged = c.edged := rfl
@[simp] theorem Channel.zeroAccum_lastEdge (c : Channel) : (c.zeroAccum).lastEdge = c.lastEdge := rfl
@[simp] theorem Channel.zeroAccum_phase (c : Channel) : (c.zeroAccum).phase = c.phase := rfl
@[simp] theorem Channel.zeroAccum_stepFaults (c : Channel) : (c.zeroAccum).stepFaults = c.stepFaults := rfl
@[simp] theorem Channel.zeroAccum_reverseFaults (c : Channel) : (c.zeroAccum).reverseFaults = c.reverseFaults := rfl
@[simp] theorem Channel.zeroAccum_speedFaults (c : Channel) : (c.zeroAccum).speedFaults = c.speedFaults := rfl
@[simp] theorem Channel.zeroAccum_summary (c : Channel) : (c.zeroAccum).summary = c.summary := rfl
@[simp] theorem Channel.zeroAccum_ring (c : Channel) : (c.zeroAccum).ring = c.ring := rfl
@[simp] theorem Channel.zeroAccum_settled (c : Channel) : (c.zeroAccum).settled = c.settled := rfl
@[simp] theorem Channel.zeroAccum_trips (c : Channel) : (c.zeroAccum).trips = c.trips := rfl
@[simp] theorem Channel.zeroAccum_stallTimer (c : Channel) : (c.zeroAccum).stallTimer = c.stallTimer := rfl
@[simp] theorem Channel.zeroAccum_lastF (c : Channel) : (c.zeroAccum).lastF = c.lastF := rfl
@[simp] theorem Channel.zeroAccum_lastT (c : Channel) : (c.zeroAccum).lastT = c.lastT := rfl
@[simp] theorem Channel.zeroAccum_strip (c : Channel) : (c.zeroAccum).strip = c.strip := rfl
@[simp] theorem Channel.zeroAccum_stripSampled (c : Channel) : (c.zeroAccum).stripSampled = c.stripSampled := rfl
@[simp] theorem Channel.zeroAccum_zones (c : Channel) : (c.zeroAccum).zones = c.zones := rfl
@[simp] theorem Channel.zeroAccum_accum (c : Channel) : (c.zeroAccum).accum = List.replicate c.tune.z ⟨0, 0⟩ := rfl
@[simp] theorem Channel.zeroAccum_mstate (c : Channel) : (c.zeroAccum).mstate = c.mstate := rfl
@[simp] theorem Channel.zeroAccum_motion (c : Channel) : (c.zeroAccum).motion = c.motion := rfl
@[simp] theorem Channel.zeroAccum_stopCause (c : Channel) : (c.zeroAccum).stopCause = c.stopCause := rfl
@[simp] theorem Channel.zeroAccum_bridge (c : Channel) : (c.zeroAccum).bridge = c.bridge := rfl
@[simp] theorem Channel.zeroAccum_switched1 (c : Channel) : (c.zeroAccum).switched1 = c.switched1 := rfl
@[simp] theorem Channel.zeroAccum_switched2 (c : Channel) : (c.zeroAccum).switched2 = c.switched2 := rfl
@[simp] theorem Channel.zeroAccum_duty (c : Channel) : (c.zeroAccum).duty = c.duty := rfl
@[simp] theorem Channel.zeroAccum_runDuty (c : Channel) : (c.zeroAccum).runDuty = c.runDuty := rfl
@[simp] theorem Channel.zeroAccum_ramp (c : Channel) : (c.zeroAccum).ramp = c.ramp := rfl
@[simp] theorem Channel.zeroAccum_brakeTimer (c : Channel) : (c.zeroAccum).brakeTimer = c.brakeTimer := rfl
@[simp] theorem Channel.zeroAccum_runSince (c : Channel) : (c.zeroAccum).runSince = c.runSince := rfl
@[simp] theorem Channel.zeroAccum_owner (c : Channel) : (c.zeroAccum).owner = c.owner := rfl
@[simp] theorem Channel.zeroAccum_holdTimer (c : Channel) : (c.zeroAccum).holdTimer = c.holdTimer := rfl
@[simp] theorem Channel.zeroAccum_latches (c : Channel) : (c.zeroAccum).latches = c.latches := rfl
@[simp] theorem Channel.zeroAccum_allowed (c : Channel) : (c.zeroAccum).allowed = c.allowed := rfl
@[simp] theorem Channel.zeroAccum_strikes (c : Channel) : (c.zeroAccum).strikes = c.strikes := rfl
@[simp] theorem Channel.zeroAccum_strikeTimer (c : Channel) : (c.zeroAccum).strikeTimer = c.strikeTimer := rfl
@[simp] theorem Channel.zeroAccum_statusDue (c : Channel) : (c.zeroAccum).statusDue = c.statusDue := rfl

/-! ### clearStrikes -/

@[simp] theorem Channel.clearStrikes_tune (c : Channel) : (c.clearStrikes).tune = c.tune := rfl
@[simp] theorem Channel.clearStrikes_hallA (c : Channel) : (c.clearStrikes).hallA = c.hallA := rfl
@[simp] theorem Channel.clearStrikes_hallB (c : Channel) : (c.clearStrikes).hallB = c.hallB := rfl
@[simp] theorem Channel.clearStrikes_hallSampled (c : Channel) : (c.clearStrikes).hallSampled = c.hallSampled := rfl
@[simp] theorem Channel.clearStrikes_position (c : Channel) : (c.clearStrikes).position = c.position := rfl
@[simp] theorem Channel.clearStrikes_datum (c : Channel) : (c.clearStrikes).datum = c.datum := rfl
@[simp] theorem Channel.clearStrikes_edged (c : Channel) : (c.clearStrikes).edged = c.edged := rfl
@[simp] theorem Channel.clearStrikes_lastEdge (c : Channel) : (c.clearStrikes).lastEdge = c.lastEdge := rfl
@[simp] theorem Channel.clearStrikes_phase (c : Channel) : (c.clearStrikes).phase = c.phase := rfl
@[simp] theorem Channel.clearStrikes_stepFaults (c : Channel) : (c.clearStrikes).stepFaults = c.stepFaults := rfl
@[simp] theorem Channel.clearStrikes_reverseFaults (c : Channel) : (c.clearStrikes).reverseFaults = c.reverseFaults := rfl
@[simp] theorem Channel.clearStrikes_speedFaults (c : Channel) : (c.clearStrikes).speedFaults = c.speedFaults := rfl
@[simp] theorem Channel.clearStrikes_summary (c : Channel) : (c.clearStrikes).summary = c.summary := rfl
@[simp] theorem Channel.clearStrikes_ring (c : Channel) : (c.clearStrikes).ring = c.ring := rfl
@[simp] theorem Channel.clearStrikes_settled (c : Channel) : (c.clearStrikes).settled = c.settled := rfl
@[simp] theorem Channel.clearStrikes_trips (c : Channel) : (c.clearStrikes).trips = c.trips := rfl
@[simp] theorem Channel.clearStrikes_stallTimer (c : Channel) : (c.clearStrikes).stallTimer = c.stallTimer := rfl
@[simp] theorem Channel.clearStrikes_lastF (c : Channel) : (c.clearStrikes).lastF = c.lastF := rfl
@[simp] theorem Channel.clearStrikes_lastT (c : Channel) : (c.clearStrikes).lastT = c.lastT := rfl
@[simp] theorem Channel.clearStrikes_strip (c : Channel) : (c.clearStrikes).strip = c.strip := rfl
@[simp] theorem Channel.clearStrikes_stripSampled (c : Channel) : (c.clearStrikes).stripSampled = c.stripSampled := rfl
@[simp] theorem Channel.clearStrikes_zones (c : Channel) : (c.clearStrikes).zones = c.zones := rfl
@[simp] theorem Channel.clearStrikes_accum (c : Channel) : (c.clearStrikes).accum = c.accum := rfl
@[simp] theorem Channel.clearStrikes_mstate (c : Channel) : (c.clearStrikes).mstate = c.mstate := rfl
@[simp] theorem Channel.clearStrikes_motion (c : Channel) : (c.clearStrikes).motion = c.motion := rfl
@[simp] theorem Channel.clearStrikes_stopCause (c : Channel) : (c.clearStrikes).stopCause = c.stopCause := rfl
@[simp] theorem Channel.clearStrikes_bridge (c : Channel) : (c.clearStrikes).bridge = c.bridge := rfl
@[simp] theorem Channel.clearStrikes_switched1 (c : Channel) : (c.clearStrikes).switched1 = c.switched1 := rfl
@[simp] theorem Channel.clearStrikes_switched2 (c : Channel) : (c.clearStrikes).switched2 = c.switched2 := rfl
@[simp] theorem Channel.clearStrikes_duty (c : Channel) : (c.clearStrikes).duty = c.duty := rfl
@[simp] theorem Channel.clearStrikes_runDuty (c : Channel) : (c.clearStrikes).runDuty = c.runDuty := rfl
@[simp] theorem Channel.clearStrikes_ramp (c : Channel) : (c.clearStrikes).ramp = c.ramp := rfl
@[simp] theorem Channel.clearStrikes_brakeTimer (c : Channel) : (c.clearStrikes).brakeTimer = c.brakeTimer := rfl
@[simp] theorem Channel.clearStrikes_runSince (c : Channel) : (c.clearStrikes).runSince = c.runSince := rfl
@[simp] theorem Channel.clearStrikes_owner (c : Channel) : (c.clearStrikes).owner = c.owner := rfl
@[simp] theorem Channel.clearStrikes_holdTimer (c : Channel) : (c.clearStrikes).holdTimer = c.holdTimer := rfl
@[simp] theorem Channel.clearStrikes_latches (c : Channel) : (c.clearStrikes).latches = c.latches := rfl
@[simp] theorem Channel.clearStrikes_allowed (c : Channel) : (c.clearStrikes).allowed = c.allowed := rfl
@[simp] theorem Channel.clearStrikes_strikes (c : Channel) : (c.clearStrikes).strikes = 0 := rfl
@[simp] theorem Channel.clearStrikes_strikeTimer (c : Channel) : (c.clearStrikes).strikeTimer = none := rfl

/-! ### clearFaults -/

@[simp] theorem Channel.clearFaults_tune (c : Channel) : (c.clearFaults).tune = c.tune := rfl
@[simp] theorem Channel.clearFaults_hallA (c : Channel) : (c.clearFaults).hallA = c.hallA := rfl
@[simp] theorem Channel.clearFaults_hallB (c : Channel) : (c.clearFaults).hallB = c.hallB := rfl
@[simp] theorem Channel.clearFaults_hallSampled (c : Channel) : (c.clearFaults).hallSampled = c.hallSampled := rfl
@[simp] theorem Channel.clearFaults_position (c : Channel) : (c.clearFaults).position = c.position := rfl
@[simp] theorem Channel.clearFaults_datum (c : Channel) : (c.clearFaults).datum = c.datum := rfl
@[simp] theorem Channel.clearFaults_edged (c : Channel) : (c.clearFaults).edged = c.edged := rfl
@[simp] theorem Channel.clearFaults_lastEdge (c : Channel) : (c.clearFaults).lastEdge = c.lastEdge := rfl
@[simp] theorem Channel.clearFaults_phase (c : Channel) : (c.clearFaults).phase = c.phase := rfl
@[simp] theorem Channel.clearFaults_stepFaults (c : Channel) : (c.clearFaults).stepFaults = 0 := rfl
@[simp] theorem Channel.clearFaults_reverseFaults (c : Channel) : (c.clearFaults).reverseFaults = 0 := rfl
@[simp] theorem Channel.clearFaults_speedFaults (c : Channel) : (c.clearFaults).speedFaults = 0 := rfl
@[simp] theorem Channel.clearFaults_summary (c : Channel) : (c.clearFaults).summary = ⟨false, false, false⟩ := rfl
@[simp] theorem Channel.clearFaults_ring (c : Channel) : (c.clearFaults).ring = c.ring := rfl
@[simp] theorem Channel.clearFaults_settled (c : Channel) : (c.clearFaults).settled = c.settled := rfl
@[simp] theorem Channel.clearFaults_trips (c : Channel) : (c.clearFaults).trips = c.trips := rfl
@[simp] theorem Channel.clearFaults_stallTimer (c : Channel) : (c.clearFaults).stallTimer = c.stallTimer := rfl
@[simp] theorem Channel.clearFaults_lastF (c : Channel) : (c.clearFaults).lastF = c.lastF := rfl
@[simp] theorem Channel.clearFaults_lastT (c : Channel) : (c.clearFaults).lastT = c.lastT := rfl
@[simp] theorem Channel.clearFaults_strip (c : Channel) : (c.clearFaults).strip = c.strip := rfl
@[simp] theorem Channel.clearFaults_stripSampled (c : Channel) : (c.clearFaults).stripSampled = c.stripSampled := rfl
@[simp] theorem Channel.clearFaults_zones (c : Channel) : (c.clearFaults).zones = c.zones := rfl
@[simp] theorem Channel.clearFaults_accum (c : Channel) : (c.clearFaults).accum = c.accum := rfl
@[simp] theorem Channel.clearFaults_mstate (c : Channel) : (c.clearFaults).mstate = c.mstate := rfl
@[simp] theorem Channel.clearFaults_motion (c : Channel) : (c.clearFaults).motion = c.motion := rfl
@[simp] theorem Channel.clearFaults_stopCause (c : Channel) : (c.clearFaults).stopCause = c.stopCause := rfl
@[simp] theorem Channel.clearFaults_bridge (c : Channel) : (c.clearFaults).bridge = c.bridge := rfl
@[simp] theorem Channel.clearFaults_switched1 (c : Channel) : (c.clearFaults).switched1 = c.switched1 := rfl
@[simp] theorem Channel.clearFaults_switched2 (c : Channel) : (c.clearFaults).switched2 = c.switched2 := rfl
@[simp] theorem Channel.clearFaults_duty (c : Channel) : (c.clearFaults).duty = c.duty := rfl
@[simp] theorem Channel.clearFaults_runDuty (c : Channel) : (c.clearFaults).runDuty = c.runDuty := rfl
@[simp] theorem Channel.clearFaults_ramp (c : Channel) : (c.clearFaults).ramp = c.ramp := rfl
@[simp] theorem Channel.clearFaults_brakeTimer (c : Channel) : (c.clearFaults).brakeTimer = c.brakeTimer := rfl
@[simp] theorem Channel.clearFaults_runSince (c : Channel) : (c.clearFaults).runSince = c.runSince := rfl
@[simp] theorem Channel.clearFaults_owner (c : Channel) : (c.clearFaults).owner = c.owner := rfl
@[simp] theorem Channel.clearFaults_holdTimer (c : Channel) : (c.clearFaults).holdTimer = c.holdTimer := rfl
@[simp] theorem Channel.clearFaults_latches (c : Channel) : (c.clearFaults).latches = c.latches := rfl
@[simp] theorem Channel.clearFaults_allowed (c : Channel) : (c.clearFaults).allowed = c.allowed := rfl
@[simp] theorem Channel.clearFaults_strikes (c : Channel) : (c.clearFaults).strikes = c.strikes := rfl
@[simp] theorem Channel.clearFaults_strikeTimer (c : Channel) : (c.clearFaults).strikeTimer = c.strikeTimer := rfl

/-! ### enterRunning -/

@[simp] theorem Channel.enterRunning_tune (c : Channel) : (c.enterRunning).tune = c.tune := rfl
@[simp] theorem Channel.enterRunning_hallA (c : Channel) : (c.enterRunning).hallA = c.hallA := rfl
@[simp] theorem Channel.enterRunning_hallB (c : Channel) : (c.enterRunning).hallB = c.hallB := rfl
@[simp] theorem Channel.enterRunning_hallSampled (c : Channel) : (c.enterRunning).hallSampled = c.hallSampled := rfl
@[simp] theorem Channel.enterRunning_position (c : Channel) : (c.enterRunning).position = c.position := rfl
@[simp] theorem Channel.enterRunning_datum (c : Channel) : (c.enterRunning).datum = c.datum := rfl
@[simp] theorem Channel.enterRunning_edged (c : Channel) : (c.enterRunning).edged = c.edged := rfl
@[simp] theorem Channel.enterRunning_lastEdge (c : Channel) : (c.enterRunning).lastEdge = c.lastEdge := rfl
@[simp] theorem Channel.enterRunning_phase (c : Channel) : (c.enterRunning).phase = c.phase := rfl
@[simp] theorem Channel.enterRunning_stepFaults (c : Channel) : (c.enterRunning).stepFaults = c.stepFaults := rfl
@[simp] theorem Channel.enterRunning_reverseFaults (c : Channel) : (c.enterRunning).reverseFaults = c.reverseFaults := rfl
@[simp] theorem Channel.enterRunning_speedFaults (c : Channel) : (c.enterRunning).speedFaults = c.speedFaults := rfl
@[simp] theorem Channel.enterRunning_summary (c : Channel) : (c.enterRunning).summary = c.summary := rfl
@[simp] theorem Channel.enterRunning_ring (c : Channel) : (c.enterRunning).ring = [] := rfl
@[simp] theorem Channel.enterRunning_settled (c : Channel) : (c.enterRunning).settled = 0 := rfl
@[simp] theorem Channel.enterRunning_trips (c : Channel) : (c.enterRunning).trips = 0 := rfl
@[simp] theorem Channel.enterRunning_stallTimer (c : Channel) : (c.enterRunning).stallTimer = c.stallTimer := rfl
@[simp] theorem Channel.enterRunning_lastF (c : Channel) : (c.enterRunning).lastF = c.lastF := rfl
@[simp] theorem Channel.enterRunning_lastT (c : Channel) : (c.enterRunning).lastT = c.lastT := rfl
@[simp] theorem Channel.enterRunning_strip (c : Channel) : (c.enterRunning).strip = c.strip := rfl
@[simp] theorem Channel.enterRunning_stripSampled (c : Channel) : (c.enterRunning).stripSampled = c.stripSampled := rfl
@[simp] theorem Channel.enterRunning_zones (c : Channel) : (c.enterRunning).zones = c.zones := rfl
@[simp] theorem Channel.enterRunning_accum (c : Channel) : (c.enterRunning).accum = c.accum := rfl
@[simp] theorem Channel.enterRunning_mstate (c : Channel) : (c.enterRunning).mstate = .running := rfl
@[simp] theorem Channel.enterRunning_motion (c : Channel) : (c.enterRunning).motion = c.motion := rfl
@[simp] theorem Channel.enterRunning_stopCause (c : Channel) : (c.enterRunning).stopCause = c.stopCause := rfl
@[simp] theorem Channel.enterRunning_bridge (c : Channel) : (c.enterRunning).bridge = c.bridge := rfl
@[simp] theorem Channel.enterRunning_switched1 (c : Channel) : (c.enterRunning).switched1 = c.switched1 := rfl
@[simp] theorem Channel.enterRunning_switched2 (c : Channel) : (c.enterRunning).switched2 = c.switched2 := rfl
@[simp] theorem Channel.enterRunning_duty (c : Channel) : (c.enterRunning).duty = c.duty := rfl
@[simp] theorem Channel.enterRunning_runDuty (c : Channel) : (c.enterRunning).runDuty = c.runDuty := rfl
@[simp] theorem Channel.enterRunning_ramp (c : Channel) : (c.enterRunning).ramp = none := rfl
@[simp] theorem Channel.enterRunning_brakeTimer (c : Channel) : (c.enterRunning).brakeTimer = c.brakeTimer := rfl
@[simp] theorem Channel.enterRunning_runSince (c : Channel) : (c.enterRunning).runSince = c.runSince := rfl
@[simp] theorem Channel.enterRunning_owner (c : Channel) : (c.enterRunning).owner = c.owner := rfl
@[simp] theorem Channel.enterRunning_holdTimer (c : Channel) : (c.enterRunning).holdTimer = c.holdTimer := rfl
@[simp] theorem Channel.enterRunning_latches (c : Channel) : (c.enterRunning).latches = c.latches := rfl
@[simp] theorem Channel.enterRunning_allowed (c : Channel) : (c.enterRunning).allowed = c.allowed := rfl
@[simp] theorem Channel.enterRunning_strikes (c : Channel) : (c.enterRunning).strikes = c.strikes := rfl
@[simp] theorem Channel.enterRunning_strikeTimer (c : Channel) : (c.enterRunning).strikeTimer = c.strikeTimer := rfl

/-- Setting the motion state ends a run of trips when it leaves RUNNING (R28). -/
theorem Channel.setMState_trips (c : Channel) (m : MotionState) :
    (c.setMState m).trips = if c.mstate = .running ∧ m ≠ .running then 0 else c.trips := rfl

/-- Setting the datum ends a run of trips unless it is REFERENCED (R31). -/
theorem Channel.setDatum_trips (c : Channel) (d : Datum) :
    (c.setDatum d).trips = if d = .referenced then c.trips else 0 := rfl

theorem Channel.setMState_statusDue (c : Channel) (m : MotionState) :
    (c.setMState m).statusDue = (c.statusDue || decide (c.mstate ≠ m)) := rfl

theorem Channel.setOwner_statusDue (c : Channel) (o : Owner) :
    (c.setOwner o).statusDue = (c.statusDue || !o.stays c.owner) := rfl

theorem Channel.setDatum_statusDue (c : Channel) (d : Datum) :
    (c.setDatum d).statusDue = (c.statusDue || decide (c.datum ≠ d)) := rfl

theorem Channel.setSummary_statusDue (c : Channel) (f : FaultSet) :
    (c.setSummary f).statusDue = (c.statusDue || decide (c.summary ≠ f)) := rfl

theorem Channel.setStrikes_statusDue (c : Channel) (n : Nat) :
    (c.setStrikes n).statusDue = (c.statusDue || decide (c.strikes ≠ n)) := rfl

end Machine

end Sys2Proof
end

