-- ==== Sys2Proof/Laws/Queue.lean ====
section
/-! SUPPORT. What the operations of the transmit queue can do: which fields they touch, how long the queue is after
them, and what stands in it; and the STATUS flush and the end of a request built on them. -/

namespace Sys2Proof.Machine

-- One proof at a time: proofs run side by side would wait for one another (each waiting thread reserves a whole stack).
set_option Elab.async false

/-! ### Joining and evicting -/

@[simp] theorem txInsert_length (f : Frame) (q : List TxEntry) : (txInsert f q).length = q.length + 1 := by
  induction q with
  | nil => rfl
  | cons e q ih => simp only [txInsert]; split <;> simp [ih]

/-- Joining adds the frame and keeps every entry. -/
theorem mem_txInsert (f : Frame) (q : List TxEntry) (x : TxEntry) :
    x ∈ txInsert f q ↔ x = ⟨f, none, false⟩ ∨ x ∈ q := by
  induction q with
  | nil => simp [txInsert]
  | cons e q ih => simp only [txInsert]; split <;> simp [ih]; tauto

/-- A frame of the lowest class joins at the end. -/
theorem txInsert_readout {f : Frame} (h : f.tag = .readout) (q : List TxEntry) :
    txInsert f q = q ++ [⟨f, none, false⟩] := by
  induction q with
  | nil => rfl
  | cons e q ih => simp [txInsert, h, FrameTag.rank, ih]

/-- Joining is a permutation of putting the frame in front. -/
theorem txInsert_perm (f : Frame) (q : List TxEntry) : (txInsert f q).Perm (⟨f, none, false⟩ :: q) := by
  induction q with
  | nil => exact List.Perm.refl _
  | cons e q ih =>
    simp only [txInsert]; split
    · exact (ih.cons e).trans (List.Perm.swap _ _ _)
    · exact List.Perm.refl _

/-- An eviction takes one entry out, which is not in transmission and ranks below. -/
theorem txEvict_some {r : Nat} {q q' : List TxEntry} {x : TxEntry} (h : txEvict r q = some (x, q')) :
    ∃ a b, q = a ++ x :: b ∧ q' = a ++ b ∧ x.onBus = none ∧ x.frame.tag.rank < r ∧
      ∀ y ∈ b, y.onBus.isSome = true := by
  induction q generalizing q' x with
  | nil => simp [txEvict] at h
  | cons e q ih =>
    simp only [txEvict] at h
    split at h
    · next y q'' hy =>
      obtain ⟨rfl, rfl⟩ : y = x ∧ e :: q'' = q' := by simpa using h
      obtain ⟨a, b, rfl, rfl, h1, h2, h3⟩ := ih hy
      exact ⟨e :: a, b, rfl, rfl, h1, h2, h3⟩
    · split at h
      · next hc =>
        obtain ⟨rfl, rfl⟩ : e = x ∧ q = q' := by simpa using h
        exact ⟨[], q, rfl, rfl, hc.1, hc.2.1, by simpa using hc.2.2⟩
      · cases h

/-- Evicting shortens the queue by one. -/
theorem txEvict_length {r : Nat} {q q' : List TxEntry} {x : TxEntry} (h : txEvict r q = some (x, q')) :
    q.length = q'.length + 1 := by
  obtain ⟨a, b, rfl, rfl, -⟩ := txEvict_some h
  simp; omega

/-! ### Handing a frame -/

/-- A frame that finds a free place joins, and nothing else changes (R173). -/
theorem handFrame_room {f : Frame} {s : State} (h : s.txQueue.length < 12) :
    handFrame f s = { s with txQueue := txInsert f s.txQueue } := by
  simp [handFrame, Config.txCap, h]

/-- A readout frame that has left the queue touches the readout engine only (R69). -/
theorem readoutDeparted_eq (s : State) : ∃ r, readoutDeparted s = { s with readout := r } := by
  unfold readoutDeparted
  split
  · split
    · exact ⟨none, rfl⟩
    · next h _ => exact ⟨s.readout, rfl⟩
  · exact ⟨s.readout, rfl⟩

/-- Handing a frame touches the transmit queue and the readout engine only. -/
theorem handFrame_eq (f : Frame) (s : State) :
    handFrame f s = { s with txQueue := (handFrame f s).txQueue, readout := (handFrame f s).readout } := by
  unfold handFrame
  split
  · rfl
  · split
    · dsimp only
      split
      · next x q _ _ =>
        obtain ⟨r, hr⟩ := readoutDeparted_eq { s with txQueue := txInsert f q }
        rw [hr]
      · rfl
    · rfl

@[simp] theorem handFrame_ch (f : Frame) (s : State) (c : Chan) : (handFrame f s).ch c = s.ch c := by
  rw [handFrame_eq]; rfl

theorem readoutDeparted_txQueue (s : State) : (readoutDeparted s).txQueue = s.txQueue := by
  obtain ⟨r, hr⟩ := readoutDeparted_eq s
  rw [hr]

/-- The queue stays within its 12 places (R172). -/
theorem handFrame_length {f : Frame} {s : State} (h : s.txQueue.length ≤ 12) :
    (handFrame f s).txQueue.length ≤ 12 := by
  unfold handFrame
  split
  · simp only [Config.txCap] at *; simp; omega
  · split
    · next x q hq =>
      have := txEvict_length hq
      dsimp only; split <;> simp [readoutDeparted_txQueue] <;> omega
    · exact h

@[simp] theorem txReplace_length (f : Frame) (q : List TxEntry) : (txReplace f q).length = q.length := by
  simp [txReplace]

/-- Handing a STATUS touches the transmit queue only (R173). -/
theorem handStatus_eq (c : Chan) (s : State) :
    handStatus c s = { s with txQueue := (handStatus c s).txQueue } := by
  unfold handStatus; split
  · rfl
  · split <;> rfl

@[simp] theorem handStatus_ch (c d : Chan) (s : State) : (handStatus c s).ch d = s.ch d := by
  rw [handStatus_eq]; rfl

/-- A STATUS lengthens the queue by one place at most, and never beyond 12 (R172, R173). -/
theorem handStatus_length (c : Chan) (s : State) :
    s.txQueue.length ≤ (handStatus c s).txQueue.length ∧
      (handStatus c s).txQueue.length ≤ s.txQueue.length + 1 ∧
      (s.txQueue.length ≤ 12 → (handStatus c s).txQueue.length ≤ 12) := by
  unfold handStatus; split
  · simp
  · split
    · simp only [Config.txCap] at *; simp; omega
    · simp

/-- The STATUS is in the queue where it had a place (R173). -/
theorem handStatus_mem (c : Chan) (s : State) (h : s.txQueue.length < 12) :
    ∃ e ∈ (handStatus c s).txQueue, e.frame = statusFrame s c := by
  unfold handStatus; split
  · next hq =>
    obtain ⟨e, he, hc⟩ := by simpa using hq
    refine ⟨_, List.mem_map.2 ⟨e, he, rfl⟩, ?_⟩
    have : (statusFrame s c).tag = .status c := rfl
    simp [hc, this]
  · simp only [Config.txCap, h, if_true]
    exact ⟨⟨statusFrame s c, none, false⟩, (mem_txInsert _ _ _).2 (.inl rfl), rfl⟩

/-- Entries that are no STATUS of the channel are in the queue after it exactly when they were before. -/
theorem mem_handStatus_of_ne {c : Chan} {s : State} {e : TxEntry} (h : e.frame.tag ≠ .status c) :
    e ∈ (handStatus c s).txQueue ↔ e ∈ s.txQueue := by
  have ht : (statusFrame s c).tag = .status c := rfl
  have hne : e ≠ ⟨statusFrame s c, none, false⟩ := by rintro rfl; exact h ht
  unfold handStatus; split
  · simp only [txReplace, List.mem_map]
    constructor
    · rintro ⟨x, hx, rfl⟩
      split at h
      · exact absurd ht h
      · next hx' => simpa [hx'] using hx
    · intro he
      exact ⟨e, he, by rw [ht, if_neg h]⟩
  · split
    · simp [mem_txInsert, hne]
    · rfl

/-- The readout engine's hand-over touches the transmit queue and the engine only (R68). -/
theorem handReadout_eq (s : State) :
    handReadout s = { s with txQueue := (handReadout s).txQueue, readout := (handReadout s).readout } := by
  unfold handReadout; split
  · rfl
  · split <;> rfl

/-! ### Operations over all channels -/

/-- Running an operation over the channels is running it six times. -/
theorem forChans_eq (f : Chan → State → State) (s : State) :
    forChans f s = f .ch5 (f .ch4 (f .ch3 (f .ch2 (f .ch1 (f .ch0 s))))) := rfl

/-- A property that each channel's turn keeps holds at the end. -/
theorem forChans_induct (P : State → Prop) {f : Chan → State → State} {s : State} (h0 : P s)
    (h : ∀ c s, P s → P (f c s)) : P (forChans f s) := by
  simp only [forChans_eq]; exact h _ _ (h _ _ (h _ _ (h _ _ (h _ _ (h _ _ h0)))))

/-- A change of every channel by itself. -/
theorem forChans_modCh (f : Channel → Channel) (s : State) :
    forChans (fun c s => s.modCh c f) s = { s with channels := PerChan.ofFn fun c => f (s.ch c) } := rfl

/-! ### The STATUS frames of a step (R177, R197) -/

/-- One channel's turn of the flush. -/
def flushOne (c : Chan) (s : State) : State :=
  if (s.ch c).statusDue then handStatus c (s.modCh c fun ch => { ch with statusDue := false }) else s

theorem flush_eq_flushOne (s : State) : flush s = forChans flushOne s := rfl

/-- One channel's turn touches that channel's mark and the transmit queue only. -/
theorem flushOne_eq (c : Chan) (s : State) :
    flushOne c s = { s with
      channels := s.channels.set c { s.ch c with statusDue := false }
      txQueue := (flushOne c s).txQueue } := by
  unfold flushOne
  split
  · rw [handStatus_eq]; rfl
  · next h =>
    have h' : (s.ch c).statusDue = false := by simpa using h
    have : ({ s.ch c with statusDue := false } : Channel) = s.ch c := by rw [← h']
    rw [this]
    simp [State.ch]

theorem flushOne_ch (c d : Chan) (s : State) :
    (flushOne c s).ch d = if d = c then { s.ch d with statusDue := false } else s.ch d := by
  rw [flushOne_eq]
  by_cases h : d = c
  · subst h; simp [State.ch]
  · simp [State.ch, h]

@[simp] theorem flush_ch (s : State) (c : Chan) : (flush s).ch c = { s.ch c with statusDue := false } := by
  rw [flush_eq_flushOne, forChans_eq]
  cases c <;> simp [flushOne_ch]

/-- The flush clears every channel's mark, and otherwise touches the transmit queue only. -/
theorem flush_eq (s : State) :
    flush s = { s with
      channels := PerChan.ofFn fun c => { s.ch c with statusDue := false }
      txQueue := (flush s).txQueue } := by
  have h : ∃ a b, flush s = { s with channels := a, txQueue := b } := by
    rw [flush_eq_flushOne]
    refine forChans_induct (fun u => ∃ a b, u = { s with channels := a, txQueue := b }) ⟨_, _, rfl⟩ ?_
    rintro c u ⟨a, b, rfl⟩
    exact ⟨_, _, flushOne_eq c _⟩
  have hc : (flush s).channels = PerChan.ofFn fun c => { s.ch c with statusDue := false } :=
    PerChan.ext_get fun c => by rw [PerChan.get_ofFn]; exact flush_ch s c
  obtain ⟨a, b, h⟩ := h
  rw [h] at hc ⊢
  simp only at hc
  rw [hc]

/-- With no STATUS due the flush does nothing. -/
theorem flush_of_noneDue {s : State} (h : s.noneDue) : flush s = s := by
  have hc : ∀ c, (s.ch c).statusDue = false := fun c => h c (Chan.mem_all c)
  have h1 : ∀ c, flushOne c s = s := fun c => by simp [flushOne, hc c]
  simp [flush_eq_flushOne, forChans_eq, h1]

/-- After the flush no STATUS is due. -/
theorem flush_noneDue (s : State) : (flush s).noneDue := fun c _ => by simp

theorem flushOne_length (c : Chan) (s : State) :
    s.txQueue.length ≤ (flushOne c s).txQueue.length ∧
      (flushOne c s).txQueue.length ≤ s.txQueue.length + 1 ∧
      (s.txQueue.length ≤ 12 → (flushOne c s).txQueue.length ≤ 12) := by
  unfold flushOne; split
  · exact handStatus_length c (s.modCh c fun ch => { ch with statusDue := false })
  · simp

/-- The flush adds at most six frames and stays within 12 (R172, R173). -/
theorem flush_length (s : State) :
    s.txQueue.length ≤ (flush s).txQueue.length ∧ (flush s).txQueue.length ≤ s.txQueue.length + 6 ∧
      (s.txQueue.length ≤ 12 → (flush s).txQueue.length ≤ 12) := by
  rw [flush_eq_flushOne, forChans_eq]
  have h0 := flushOne_length .ch0 s
  have h1 := flushOne_length .ch1 (flushOne .ch0 s)
  have h2 := flushOne_length .ch2 (flushOne .ch1 (flushOne .ch0 s))
  have h3 := flushOne_length .ch3 (flushOne .ch2 (flushOne .ch1 (flushOne .ch0 s)))
  have h4 := flushOne_length .ch4 (flushOne .ch3 (flushOne .ch2 (flushOne .ch1 (flushOne .ch0 s))))
  have h5 := flushOne_length .ch5 (flushOne .ch4 (flushOne .ch3 (flushOne .ch2 (flushOne .ch1 (flushOne .ch0 s)))))
  omega

theorem mem_flushOne_of_ne {c : Chan} {s : State} {e : TxEntry} (h : e.frame.tag ≠ .status c) :
    e ∈ (flushOne c s).txQueue ↔ e ∈ s.txQueue := by
  unfold flushOne; split
  · rw [mem_handStatus_of_ne h]; rfl
  · rfl

/-- The flush queues STATUS frames only: every other entry is there exactly when it was before. -/
theorem mem_flush_of_ne {s : State} {e : TxEntry} (h : ∀ c, e.frame.tag ≠ .status c) :
    e ∈ (flush s).txQueue ↔ e ∈ s.txQueue := by
  rw [flush_eq_flushOne, forChans_eq]
  simp only [mem_flushOne_of_ne (h _)]

/-- The STATUS frame is formed from the channel, V, the band and the status base only (R176). -/
theorem statusFrame_congr {s t : State} {c : Chan} (h : { t.ch c with statusDue := (s.ch c).statusDue } = s.ch c)
    (hv : t.volts = s.volts) (hb : t.band = s.band) (hg : t.globals = s.globals) :
    statusFrame t c = statusFrame s c := by
  simp only [statusFrame, hv, hb, hg]
  change _ = Frame.mk _ _ (bytesOf 8 (statusBits (s.ch c) s.volts s.band))
  rw [← h]; rfl

theorem statusFrame_flushOne (c d : Chan) (s : State) : statusFrame (flushOne d s) c = statusFrame s c := by
  apply statusFrame_congr
  · rw [flushOne_ch]; split
    · next h => subst h; rfl
    · rfl
  all_goals rw [flushOne_eq]

/-- A STATUS due is in the queue after the flush, formed from the state as it is then, where it had a place (R176). -/
theorem flush_mem {s : State} {c : Chan} (hd : (s.ch c).statusDue = true) (h : s.txQueue.length + 6 ≤ 12) :
    ∃ e ∈ (flush s).txQueue, e.frame = statusFrame (flush s) c := by
  have keep : ∀ d u, d ≠ c → (∃ e ∈ u.txQueue, e.frame = statusFrame u c) →
      ∃ e ∈ (flushOne d u).txQueue, e.frame = statusFrame (flushOne d u) c := by
    rintro d u hdc ⟨e, he, hf⟩
    refine ⟨e, (mem_flushOne_of_ne ?_).2 he, by rw [statusFrame_flushOne, hf]⟩
    rw [hf]; intro hc; apply hdc; simpa [statusFrame, eq_comm] using hc
  have made : ∀ u : State, (u.ch c).statusDue = true → u.txQueue.length < 12 →
      ∃ e ∈ (flushOne c u).txQueue, e.frame = statusFrame (flushOne c u) c := by
    intro u hu hl
    obtain ⟨e, he, hf⟩ := handStatus_mem c (u.modCh c fun ch => { ch with statusDue := false }) hl
    rw [statusFrame_flushOne]
    refine ⟨e, by simpa [flushOne, hu] using he, ?_⟩
    rw [hf]
    apply statusFrame_congr <;> simp
  rw [flush_eq_flushOne, forChans_eq]
  have h0 := flushOne_length .ch0 s
  have h1 := flushOne_length .ch1 (flushOne .ch0 s)
  have h2 := flushOne_length .ch2 (flushOne .ch1 (flushOne .ch0 s))
  have h3 := flushOne_length .ch3 (flushOne .ch2 (flushOne .ch1 (flushOne .ch0 s)))
  have h4 := flushOne_length .ch4 (flushOne .ch3 (flushOne .ch2 (flushOne .ch1 (flushOne .ch0 s))))
  cases c with
  | ch0 =>
    exact keep _ _ (by decide) <| keep _ _ (by decide) <| keep _ _ (by decide) <| keep _ _ (by decide) <|
      keep _ _ (by decide) <| made _ hd (by omega)
  | ch1 =>
    exact keep _ _ (by decide) <| keep _ _ (by decide) <| keep _ _ (by decide) <| keep _ _ (by decide) <|
      made _ (by simpa [flushOne_ch] using hd) (by omega)
  | ch2 =>
    exact keep _ _ (by decide) <| keep _ _ (by decide) <| keep _ _ (by decide) <|
      made _ (by simpa [flushOne_ch] using hd) (by omega)
  | ch3 => exact keep _ _ (by decide) <| keep _ _ (by decide) <| made _ (by simpa [flushOne_ch] using hd) (by omega)
  | ch4 => exact keep _ _ (by decide) <| made _ (by simpa [flushOne_ch] using hd) (by omega)
  | ch5 => exact made _ (by simpa [flushOne_ch] using hd) (by omega)

/-! ### The end of a request (R171) -/

/-- A handling that sends nothing ends with the flush. -/
theorem conclude_nothing (slot : Slot) (kind : Nat) (s : State) : conclude slot kind (s, .nothing) = flush s := rfl

/-- A handling that is answered ends with the flush and the ANSWER. -/
theorem conclude_answer (slot : Slot) (kind : Nat) (s : State) (r : Reply) (t : List Nat) :
    conclude slot kind (s, .answer r t) = handFrame (answerFrame (flush s).globals slot kind r t) (flush s) := rfl

/-- The ANSWER is in the queue where one request's frames had room (R171, R173). -/
theorem conclude_answered {s u : State} (slot : Slot) (kind : Nat) (r : Reply) (t : List Nat)
    (h : u.txQueue.length ≤ s.txQueue.length + 1) :
    answered s (conclude slot kind (u, .answer r t)) slot kind r t := by
  intro hr
  have hf := (flush_length u).2.1
  simp only [Config.txCap] at hr
  rw [conclude_answer, handFrame_room (by omega)]
  exact ⟨_, (mem_txInsert _ _ _).2 (.inl rfl), rfl⟩

/-- An ANSWER touches the transmit queue and the readout engine, and the flush the marks of the channels. -/
theorem conclude_answer_eq (slot : Slot) (kind : Nat) (s : State) (r : Reply) (t : List Nat) :
    conclude slot kind (s, .answer r t) = { s with
      channels := PerChan.ofFn fun c => { s.ch c with statusDue := false }
      txQueue := (conclude slot kind (s, .answer r t)).txQueue
      readout := (conclude slot kind (s, .answer r t)).readout } := by
  rw [conclude_answer, handFrame_eq, flush_eq]

@[simp] theorem conclude_answer_ch (slot : Slot) (kind : Nat) (s : State) (r : Reply) (t : List Nat) (c : Chan) :
    (conclude slot kind (s, .answer r t)).ch c = { s.ch c with statusDue := false } := by
  rw [conclude_answer, handFrame_ch, flush_ch]

/-- A request that passes the screen is handled by its kind's rules (R169, R170). -/
theorem serve_of_takes {s : State} {k : RequestKind} {slot : Slot} {b : List Byte} {rest : List Request}
    (h : s.takes k slot b rest) (f : Slot → List Byte → State → State × Sends) :
    serve k f s = conclude slot (byteAt b 0) (f slot b (s.taken k rest)) := by
  obtain ⟨hu, hn, hk, hl, hr⟩ := h
  unfold serve
  rw [hu, hn]
  simp [hk, screened, Nat.not_lt.2 hl, hr, State.taken, hu]

/-- Taking a request touches the normal FIFO and the config idle timer only. -/
theorem State.taken_eq (s : State) (k : RequestKind) (rest : List Request) :
    s.taken k rest = { s with normal := rest, configTimer := (s.taken k rest).configTimer } := by
  unfold State.taken touchConfig; split <;> rfl

@[simp] theorem State.taken_ch (s : State) (k : RequestKind) (rest : List Request) (c : Chan) :
    (s.taken k rest).ch c = s.ch c := by
  rw [State.taken_eq]; rfl

/-- The code of a kind is its byte 0 (R192). -/
theorem code_of_kindOf {b : List Byte} {k : RequestKind} (h : kindOf b = some k) :
    RequestKind.ofCode (byteAt b 0) = some k := by
  unfold kindOf at h; split at h
  · cases h
  · exact h

end Sys2Proof.Machine
end

