-- ==== Sys2Proof/Laws/Drive.lean ====
section
/-! SUPPORT. What the operations of one channel's drive can do: the fields each leaves as it is, and what it sets.
The brake, the end of a motion and the entry to IDLE are used through these, not unfolded. -/

namespace Sys2Proof.Machine

-- One proof at a time: proofs run side by side would wait for one another (each waiting thread reserves a whole stack).
set_option Elab.async false

/-! ### setBridge -/

@[simp] theorem Channel.setBridge_tune (c : Channel) (now : Nat) (b : Bridge) (duty : Nat) : (c.setBridge now b duty).tune = c.tune := by unfold Channel.setBridge; split; rfl; split <;> rfl
@[simp] theorem Channel.setBridge_hallA (c : Channel) (now : Nat) (b : Bridge) (duty : Nat) : (c.setBridge now b duty).hallA = c.hallA := by unfold Channel.setBridge; split; rfl; split <;> rfl
@[simp] theorem Channel.setBridge_hallB (c : Channel) (now : Nat) (b : Bridge) (duty : Nat) : (c.setBridge now b duty).hallB = c.hallB := by unfold Channel.setBridge; split; rfl; split <;> rfl
@[simp] theorem Channel.setBridge_hallSampled (c : Channel) (now : Nat) (b : Bridge) (duty : Nat) : (c.setBridge now b duty).hallSampled = c.hallSampled := by unfold Channel.setBridge; split; rfl; split <;> rfl
@[simp] theorem Channel.setBridge_position (c : Channel) (now : Nat) (b : Bridge) (duty : Nat) : (c.setBridge now b duty).position = c.position := by unfold Channel.setBridge; split; rfl; split <;> rfl
@[simp] theorem Channel.setBridge_datum (c : Channel) (now : Nat) (b : Bridge) (duty : Nat) : (c.setBridge now b duty).datum = c.datum := by unfold Channel.setBridge; split; rfl; split <;> rfl
@[simp] theorem Channel.setBridge_edged (c : Channel) (now : Nat) (b : Bridge) (duty : Nat) : (c.setBridge now b duty).edged = c.edged := by unfold Channel.setBridge; split; rfl; split <;> rfl
@[simp] theorem Channel.setBridge_lastEdge (c : Channel) (now : Nat) (b : Bridge) (duty : Nat) : (c.setBridge now b duty).lastEdge = c.lastEdge := by unfold Channel.setBridge; split; rfl; split <;> rfl
@[simp] theorem Channel.setBridge_stepFaults (c : Channel) (now : Nat) (b : Bridge) (duty : Nat) : (c.setBridge now b duty).stepFaults = c.stepFaults := by unfold Channel.setBridge; split; rfl; split <;> rfl
@[simp] theorem Channel.setBridge_reverseFaults (c : Channel) (now : Nat) (b : Bridge) (duty : Nat) : (c.setBridge now b duty).reverseFaults = c.reverseFaults := by unfold Channel.setBridge; split; rfl; split <;> rfl
@[simp] theorem Channel.setBridge_speedFaults (c : Channel) (now : Nat) (b : Bridge) (duty : Nat) : (c.setBridge now b duty).speedFaults = c.speedFaults := by unfold Channel.setBridge; split; rfl; split <;> rfl
@[simp] theorem Channel.setBridge_summary (c : Channel) (now : Nat) (b : Bridge) (duty : Nat) : (c.setBridge now b duty).summary = c.summary := by unfold Channel.setBridge; split; rfl; split <;> rfl
@[simp] theorem Channel.setBridge_ring (c : Channel) (now : Nat) (b : Bridge) (duty : Nat) : (c.setBridge now b duty).ring = c.ring := by unfold Channel.setBridge; split; rfl; split <;> rfl
@[simp] theorem Channel.setBridge_settled (c : Channel) (now : Nat) (b : Bridge) (duty : Nat) : (c.setBridge now b duty).settled = c.settled := by unfold Channel.setBridge; split; rfl; split <;> rfl
@[simp] theorem Channel.setBridge_trips (c : Channel) (now : Nat) (b : Bridge) (duty : Nat) : (c.setBridge now b duty).trips = c.trips := by unfold Channel.setBridge; split; rfl; split <;> rfl
@[simp] theorem Channel.setBridge_lastF (c : Channel) (now : Nat) (b : Bridge) (duty : Nat) : (c.setBridge now b duty).lastF = c.lastF := by unfold Channel.setBridge; split; rfl; split <;> rfl
@[simp] theorem Channel.setBridge_lastT (c : Channel) (now : Nat) (b : Bridge) (duty : Nat) : (c.setBridge now b duty).lastT = c.lastT := by unfold Channel.setBridge; split; rfl; split <;> rfl
@[simp] theorem Channel.setBridge_strip (c : Channel) (now : Nat) (b : Bridge) (duty : Nat) : (c.setBridge now b duty).strip = c.strip := by unfold Channel.setBridge; split; rfl; split <;> rfl
@[simp] theorem Channel.setBridge_stripSampled (c : Channel) (now : Nat) (b : Bridge) (duty : Nat) : (c.setBridge now b duty).stripSampled = c.stripSampled := by unfold Channel.setBridge; split; rfl; split <;> rfl
@[simp] theorem Channel.setBridge_zones (c : Channel) (now : Nat) (b : Bridge) (duty : Nat) : (c.setBridge now b duty).zones = c.zones := by unfold Channel.setBridge; split; rfl; split <;> rfl
@[simp] theorem Channel.setBridge_accum (c : Channel) (now : Nat) (b : Bridge) (duty : Nat) : (c.setBridge now b duty).accum = c.accum := by unfold Channel.setBridge; split; rfl; split <;> rfl
@[simp] theorem Channel.setBridge_mstate (c : Channel) (now : Nat) (b : Bridge) (duty : Nat) : (c.setBridge now b duty).mstate = c.mstate := by unfold Channel.setBridge; split; rfl; split <;> rfl
@[simp] theorem Channel.setBridge_motion (c : Channel) (now : Nat) (b : Bridge) (duty : Nat) : (c.setBridge now b duty).motion = c.motion := by unfold Channel.setBridge; split; rfl; split <;> rfl
@[simp] theorem Channel.setBridge_stopCause (c : Channel) (now : Nat) (b : Bridge) (duty : Nat) : (c.setBridge now b duty).stopCause = c.stopCause := by unfold Channel.setBridge; split; rfl; split <;> rfl
@[simp] theorem Channel.setBridge_runDuty (c : Channel) (now : Nat) (b : Bridge) (duty : Nat) : (c.setBridge now b duty).runDuty = c.runDuty := by unfold Channel.setBridge; split; rfl; split <;> rfl
@[simp] theorem Channel.setBridge_ramp (c : Channel) (now : Nat) (b : Bridge) (duty : Nat) : (c.setBridge now b duty).ramp = c.ramp := by unfold Channel.setBridge; split; rfl; split <;> rfl
@[simp] theorem Channel.setBridge_brakeTimer (c : Channel) (now : Nat) (b : Bridge) (duty : Nat) : (c.setBridge now b duty).brakeTimer = c.brakeTimer := by unfold Channel.setBridge; split; rfl; split <;> rfl
@[simp] theorem Channel.setBridge_runSince (c : Channel) (now : Nat) (b : Bridge) (duty : Nat) : (c.setBridge now b duty).runSince = c.runSince := by unfold Channel.setBridge; split; rfl; split <;> rfl
@[simp] theorem Channel.setBridge_owner (c : Channel) (now : Nat) (b : Bridge) (duty : Nat) : (c.setBridge now b duty).owner = c.owner := by unfold Channel.setBridge; split; rfl; split <;> rfl
@[simp] theorem Channel.setBridge_holdTimer (c : Channel) (now : Nat) (b : Bridge) (duty : Nat) : (c.setBridge now b duty).holdTimer = c.holdTimer := by unfold Channel.setBridge; split; rfl; split <;> rfl
@[simp] theorem Channel.setBridge_latches (c : Channel) (now : Nat) (b : Bridge) (duty : Nat) : (c.setBridge now b duty).latches = c.latches := by unfold Channel.setBridge; split; rfl; split <;> rfl
@[simp] theorem Channel.setBridge_allowed (c : Channel) (now : Nat) (b : Bridge) (duty : Nat) : (c.setBridge now b duty).allowed = c.allowed := by unfold Channel.setBridge; split; rfl; split <;> rfl
@[simp] theorem Channel.setBridge_strikes (c : Channel) (now : Nat) (b : Bridge) (duty : Nat) : (c.setBridge now b duty).strikes = c.strikes := by unfold Channel.setBridge; split; rfl; split <;> rfl
@[simp] theorem Channel.setBridge_strikeTimer (c : Channel) (now : Nat) (b : Bridge) (duty : Nat) : (c.setBridge now b duty).strikeTimer = c.strikeTimer := by unfold Channel.setBridge; split; rfl; split <;> rfl
@[simp] theorem Channel.setBridge_statusDue (c : Channel) (now : Nat) (b : Bridge) (duty : Nat) : (c.setBridge now b duty).statusDue = c.statusDue := by unfold Channel.setBridge; split; rfl; split <;> rfl

@[simp] theorem Channel.setBridge_bridge (c : Channel) (now : Nat) (b : Bridge) (duty : Nat) :
    (c.setBridge now b duty).bridge = b := by
  unfold Channel.setBridge; split
  · next h => exact h.symm
  · split <;> rfl

@[simp] theorem Channel.setBridge_duty (c : Channel) (now : Nat) (b : Bridge) (duty : Nat) :
    (c.setBridge now b duty).duty = duty := by
  unfold Channel.setBridge; split; rfl; split <;> rfl

/-- A change of bridge state begins or ends the drive phase (R9). -/
theorem Channel.setBridge_phase {c : Channel} {b : Bridge} (h : b ≠ c.bridge) (now duty : Nat) :
    (c.setBridge now b duty).phase = b.dir.map fun d => ⟨d, now, false⟩ := by
  simp only [Channel.setBridge, if_neg h]; split <;> simp [*]

/-- A change of bridge state starts or stops the stall timer (R39). -/
theorem Channel.setBridge_stallTimer {c : Channel} {b : Bridge} (h : b ≠ c.bridge) (now duty : Nat) :
    (c.setBridge now b duty).stallTimer = b.dir.bind fun _ => startTimer now c.tune.tss := by
  simp only [Channel.setBridge, if_neg h]; split <;> simp [*]

/-- A side of a bridge that keeps its state is not switched (R190). -/
@[simp] theorem switchedAt_self (side : Bridge → Nat → Side) (now : Nat) (b : Bridge) (last : Option Nat) :
    switchedAt side now b b last = last := by simp [switchedAt]

/-- Every change of bridge state stamps the sides it switches (R82, R190). -/
theorem Channel.setBridge_switched1 (c : Channel) (now : Nat) (b : Bridge) (duty : Nat) :
    (c.setBridge now b duty).switched1 = switchedAt side1 now c.bridge b c.switched1 := by
  unfold Channel.setBridge; split
  · next h => subst h; simp
  · split <;> rfl

theorem Channel.setBridge_switched2 (c : Channel) (now : Nat) (b : Bridge) (duty : Nat) :
    (c.setBridge now b duty).switched2 = switchedAt side2 now c.bridge b c.switched2 := by
  unfold Channel.setBridge; split
  · next h => subst h; simp
  · split <;> rfl

/-- A side shows the gates of the bridge state once the dead time since its last switching has passed (R190). -/
theorem deadTime_of_past {last : Option Nat} {now : Nat} (h : ∀ t ∈ last, t + Config.deadTimeUs ≤ now) (on : Side) :
    deadTime last now on = on := by
  unfold deadTime
  cases last with
  | none => simp
  | some t => have := h t rfl; simp; omega

/-! ### freezeRun -/

@[simp] theorem Channel.freezeRun_tune (c : Channel) (now : Nat) : (c.freezeRun now).tune = c.tune := rfl
@[simp] theorem Channel.freezeRun_hallA (c : Channel) (now : Nat) : (c.freezeRun now).hallA = c.hallA := rfl
@[simp] theorem Channel.freezeRun_hallB (c : Channel) (now : Nat) : (c.freezeRun now).hallB = c.hallB := rfl
@[simp] theorem Channel.freezeRun_hallSampled (c : Channel) (now : Nat) : (c.freezeRun now).hallSampled = c.hallSampled := rfl
@[simp] theorem Channel.freezeRun_position (c : Channel) (now : Nat) : (c.freezeRun now).position = c.position := rfl
@[simp] theorem Channel.freezeRun_datum (c : Channel) (now : Nat) : (c.freezeRun now).datum = c.datum := rfl
@[simp] theorem Channel.freezeRun_edged (c : Channel) (now : Nat) : (c.freezeRun now).edged = c.edged := rfl
@[simp] theorem Channel.freezeRun_lastEdge (c : Channel) (now : Nat) : (c.freezeRun now).lastEdge = c.lastEdge := rfl
@[simp] theorem Channel.freezeRun_phase (c : Channel) (now : Nat) : (c.freezeRun now).phase = c.phase := rfl
@[simp] theorem Channel.freezeRun_stepFaults (c : Channel) (now : Nat) : (c.freezeRun now).stepFaults = c.stepFaults := rfl
@[simp] theorem Channel.freezeRun_reverseFaults (c : Channel) (now : Nat) : (c.freezeRun now).reverseFaults = c.reverseFaults := rfl
@[simp] theorem Channel.freezeRun_speedFaults (c : Channel) (now : Nat) : (c.freezeRun now).speedFaults = c.speedFaults := rfl
@[simp] theorem Channel.freezeRun_summary (c : Channel) (now : Nat) : (c.freezeRun now).summary = c.summary := rfl
@[simp] theorem Channel.freezeRun_ring (c : Channel) (now : Nat) : (c.freezeRun now).ring = c.ring := rfl
@[simp] theorem Channel.freezeRun_settled (c : Channel) (now : Nat) : (c.freezeRun now).settled = c.settled := rfl
@[simp] theorem Channel.freezeRun_trips (c : Channel) (now : Nat) : (c.freezeRun now).trips = c.trips := rfl
@[simp] theorem Channel.freezeRun_stallTimer (c : Channel) (now : Nat) : (c.freezeRun now).stallTimer = c.stallTimer := rfl
@[simp] theorem Channel.freezeRun_lastF (c : Channel) (now : Nat) : (c.freezeRun now).lastF = c.lastF := rfl
@[simp] theorem Channel.freezeRun_lastT (c : Channel) (now : Nat) : (c.freezeRun now).lastT = c.lastT := rfl
@[simp] theorem Channel.freezeRun_strip (c : Channel) (now : Nat) : (c.freezeRun now).strip = c.strip := rfl
@[simp] theorem Channel.freezeRun_stripSampled (c : Channel) (now : Nat) : (c.freezeRun now).stripSampled = c.stripSampled := rfl
@[simp] theorem Channel.freezeRun_zones (c : Channel) (now : Nat) : (c.freezeRun now).zones = c.zones := rfl
@[simp] theorem Channel.freezeRun_accum (c : Channel) (now : Nat) : (c.freezeRun now).accum = c.accum := rfl
@[simp] theorem Channel.freezeRun_mstate (c : Channel) (now : Nat) : (c.freezeRun now).mstate = c.mstate := rfl
@[simp] theorem Channel.freezeRun_stopCause (c : Channel) (now : Nat) : (c.freezeRun now).stopCause = c.stopCause := rfl
@[simp] theorem Channel.freezeRun_bridge (c : Channel) (now : Nat) : (c.freezeRun now).bridge = c.bridge := rfl
@[simp] theorem Channel.freezeRun_switched1 (c : Channel) (now : Nat) : (c.freezeRun now).switched1 = c.switched1 := rfl
@[simp] theorem Channel.freezeRun_switched2 (c : Channel) (now : Nat) : (c.freezeRun now).switched2 = c.switched2 := rfl
@[simp] theorem Channel.freezeRun_duty (c : Channel) (now : Nat) : (c.freezeRun now).duty = c.duty := rfl
@[simp] theorem Channel.freezeRun_runDuty (c : Channel) (now : Nat) : (c.freezeRun now).runDuty = c.runDuty := rfl
@[simp] theorem Channel.freezeRun_ramp (c : Channel) (now : Nat) : (c.freezeRun now).ramp = c.ramp := rfl
@[simp] theorem Channel.freezeRun_brakeTimer (c : Channel) (now : Nat) : (c.freezeRun now).brakeTimer = c.brakeTimer := rfl
@[simp] theorem Channel.freezeRun_owner (c : Channel) (now : Nat) : (c.freezeRun now).owner = c.owner := rfl
@[simp] theorem Channel.freezeRun_holdTimer (c : Channel) (now : Nat) : (c.freezeRun now).holdTimer = c.holdTimer := rfl
@[simp] theorem Channel.freezeRun_latches (c : Channel) (now : Nat) : (c.freezeRun now).latches = c.latches := rfl
@[simp] theorem Channel.freezeRun_allowed (c : Channel) (now : Nat) : (c.freezeRun now).allowed = c.allowed := rfl
@[simp] theorem Channel.freezeRun_strikes (c : Channel) (now : Nat) : (c.freezeRun now).strikes = c.strikes := rfl
@[simp] theorem Channel.freezeRun_strikeTimer (c : Channel) (now : Nat) : (c.freezeRun now).strikeTimer = c.strikeTimer := rfl
@[simp] theorem Channel.freezeRun_statusDue (c : Channel) (now : Nat) : (c.freezeRun now).statusDue = c.statusDue := rfl

@[simp] theorem Channel.freezeRun_runSince (c : Channel) (now : Nat) : (c.freezeRun now).runSince = none := rfl

@[simp] theorem Channel.freezeRun_motion (c : Channel) (now : Nat) :
    (c.freezeRun now).motion = c.motion.map fun m => { m with runTime := min c.tune.runLimit (c.runElapsed now) } := rfl

/-! ### latch -/

@[simp] theorem Channel.latch_tune (c : Channel) (now : Nat) (o : Owner) : (c.latch now o).tune = c.tune := by unfold Channel.latch; split <;> rfl
@[simp] theorem Channel.latch_hallA (c : Channel) (now : Nat) (o : Owner) : (c.latch now o).hallA = c.hallA := by unfold Channel.latch; split <;> rfl
@[simp] theorem Channel.latch_hallB (c : Channel) (now : Nat) (o : Owner) : (c.latch now o).hallB = c.hallB := by unfold Channel.latch; split <;> rfl
@[simp] theorem Channel.latch_hallSampled (c : Channel) (now : Nat) (o : Owner) : (c.latch now o).hallSampled = c.hallSampled := by unfold Channel.latch; split <;> rfl
@[simp] theorem Channel.latch_position (c : Channel) (now : Nat) (o : Owner) : (c.latch now o).position = c.position := by unfold Channel.latch; split <;> rfl
@[simp] theorem Channel.latch_datum (c : Channel) (now : Nat) (o : Owner) : (c.latch now o).datum = c.datum := by unfold Channel.latch; split <;> rfl
@[simp] theorem Channel.latch_edged (c : Channel) (now : Nat) (o : Owner) : (c.latch now o).edged = c.edged := by unfold Channel.latch; split <;> rfl
@[simp] theorem Channel.latch_lastEdge (c : Channel) (now : Nat) (o : Owner) : (c.latch now o).lastEdge = c.lastEdge := by unfold Channel.latch; split <;> rfl
@[simp] theorem Channel.latch_phase (c : Channel) (now : Nat) (o : Owner) : (c.latch now o).phase = c.phase := by unfold Channel.latch; split <;> rfl
@[simp] theorem Channel.latch_stepFaults (c : Channel) (now : Nat) (o : Owner) : (c.latch now o).stepFaults = c.stepFaults := by unfold Channel.latch; split <;> rfl
@[simp] theorem Channel.latch_reverseFaults (c : Channel) (now : Nat) (o : Owner) : (c.latch now o).reverseFaults = c.reverseFaults := by unfold Channel.latch; split <;> rfl
@[simp] theorem Channel.latch_speedFaults (c : Channel) (now : Nat) (o : Owner) : (c.latch now o).speedFaults = c.speedFaults := by unfold Channel.latch; split <;> rfl
@[simp] theorem Channel.latch_summary (c : Channel) (now : Nat) (o : Owner) : (c.latch now o).summary = c.summary := by unfold Channel.latch; split <;> rfl
@[simp] theorem Channel.latch_ring (c : Channel) (now : Nat) (o : Owner) : (c.latch now o).ring = c.ring := by unfold Channel.latch; split <;> rfl
@[simp] theorem Channel.latch_settled (c : Channel) (now : Nat) (o : Owner) : (c.latch now o).settled = c.settled := by unfold Channel.latch; split <;> rfl
@[simp] theorem Channel.latch_trips (c : Channel) (now : Nat) (o : Owner) : (c.latch now o).trips = c.trips := by unfold Channel.latch; split <;> rfl
@[simp] theorem Channel.latch_stallTimer (c : Channel) (now : Nat) (o : Owner) : (c.latch now o).stallTimer = c.stallTimer := by unfold Channel.latch; split <;> rfl
@[simp] theorem Channel.latch_lastF (c : Channel) (now : Nat) (o : Owner) : (c.latch now o).lastF = c.lastF := by unfold Channel.latch; split <;> rfl
@[simp] theorem Channel.latch_lastT (c : Channel) (now : Nat) (o : Owner) : (c.latch now o).lastT = c.lastT := by unfold Channel.latch; split <;> rfl
@[simp] theorem Channel.latch_strip (c : Channel) (now : Nat) (o : Owner) : (c.latch now o).strip = c.strip := by unfold Channel.latch; split <;> rfl
@[simp] theorem Channel.latch_stripSampled (c : Channel) (now : Nat) (o : Owner) : (c.latch now o).stripSampled = c.stripSampled := by unfold Channel.latch; split <;> rfl
@[simp] theorem Channel.latch_zones (c : Channel) (now : Nat) (o : Owner) : (c.latch now o).zones = c.zones := by unfold Channel.latch; split <;> rfl
@[simp] theorem Channel.latch_accum (c : Channel) (now : Nat) (o : Owner) : (c.latch now o).accum = c.accum := by unfold Channel.latch; split <;> rfl
@[simp] theorem Channel.latch_mstate (c : Channel) (now : Nat) (o : Owner) : (c.latch now o).mstate = c.mstate := by unfold Channel.latch; split <;> rfl
@[simp] theorem Channel.latch_motion (c : Channel) (now : Nat) (o : Owner) : (c.latch now o).motion = c.motion := by unfold Channel.latch; split <;> rfl
@[simp] theorem Channel.latch_stopCause (c : Channel) (now : Nat) (o : Owner) : (c.latch now o).stopCause = c.stopCause := by unfold Channel.latch; split <;> rfl
@[simp] theorem Channel.latch_bridge (c : Channel) (now : Nat) (o : Owner) : (c.latch now o).bridge = c.bridge := by unfold Channel.latch; split <;> rfl
@[simp] theorem Channel.latch_switched1 (c : Channel) (now : Nat) (o : Owner) : (c.latch now o).switched1 = c.switched1 := by unfold Channel.latch; split <;> rfl
@[simp] theorem Channel.latch_switched2 (c : Channel) (now : Nat) (o : Owner) : (c.latch now o).switched2 = c.switched2 := by unfold Channel.latch; split <;> rfl
@[simp] theorem Channel.latch_duty (c : Channel) (now : Nat) (o : Owner) : (c.latch now o).duty = c.duty := by unfold Channel.latch; split <;> rfl
@[simp] theorem Channel.latch_runDuty (c : Channel) (now : Nat) (o : Owner) : (c.latch now o).runDuty = c.runDuty := by unfold Channel.latch; split <;> rfl
@[simp] theorem Channel.latch_ramp (c : Channel) (now : Nat) (o : Owner) : (c.latch now o).ramp = c.ramp := by unfold Channel.latch; split <;> rfl
@[simp] theorem Channel.latch_brakeTimer (c : Channel) (now : Nat) (o : Owner) : (c.latch now o).brakeTimer = c.brakeTimer := by unfold Channel.latch; split <;> rfl
@[simp] theorem Channel.latch_runSince (c : Channel) (now : Nat) (o : Owner) : (c.latch now o).runSince = c.runSince := by unfold Channel.latch; split <;> rfl
@[simp] theorem Channel.latch_owner (c : Channel) (now : Nat) (o : Owner) : (c.latch now o).owner = c.owner := by unfold Channel.latch; split <;> rfl
@[simp] theorem Channel.latch_holdTimer (c : Channel) (now : Nat) (o : Owner) : (c.latch now o).holdTimer = c.holdTimer := by unfold Channel.latch; split <;> rfl
@[simp] theorem Channel.latch_allowed (c : Channel) (now : Nat) (o : Owner) : (c.latch now o).allowed = c.allowed := by unfold Channel.latch; split <;> rfl
@[simp] theorem Channel.latch_strikes (c : Channel) (now : Nat) (o : Owner) : (c.latch now o).strikes = c.strikes := by unfold Channel.latch; split <;> rfl
@[simp] theorem Channel.latch_strikeTimer (c : Channel) (now : Nat) (o : Owner) : (c.latch now o).strikeTimer = c.strikeTimer := by unfold Channel.latch; split <;> rfl
@[simp] theorem Channel.latch_statusDue (c : Channel) (now : Nat) (o : Owner) : (c.latch now o).statusDue = c.statusDue := by unfold Channel.latch; split <;> rfl

/-! ### release -/

@[simp] theorem Channel.release_tune (c : Channel) (now : Nat) (l : Bool) : (c.release now l).tune = c.tune := by unfold Channel.release; split; rfl; split <;> simp
@[simp] theorem Channel.release_hallA (c : Channel) (now : Nat) (l : Bool) : (c.release now l).hallA = c.hallA := by unfold Channel.release; split; rfl; split <;> simp
@[simp] theorem Channel.release_hallB (c : Channel) (now : Nat) (l : Bool) : (c.release now l).hallB = c.hallB := by unfold Channel.release; split; rfl; split <;> simp
@[simp] theorem Channel.release_hallSampled (c : Channel) (now : Nat) (l : Bool) : (c.release now l).hallSampled = c.hallSampled := by unfold Channel.release; split; rfl; split <;> simp
@[simp] theorem Channel.release_position (c : Channel) (now : Nat) (l : Bool) : (c.release now l).position = c.position := by unfold Channel.release; split; rfl; split <;> simp
@[simp] theorem Channel.release_datum (c : Channel) (now : Nat) (l : Bool) : (c.release now l).datum = c.datum := by unfold Channel.release; split; rfl; split <;> simp
@[simp] theorem Channel.release_edged (c : Channel) (now : Nat) (l : Bool) : (c.release now l).edged = c.edged := by unfold Channel.release; split; rfl; split <;> simp
@[simp] theorem Channel.release_lastEdge (c : Channel) (now : Nat) (l : Bool) : (c.release now l).lastEdge = c.lastEdge := by unfold Channel.release; split; rfl; split <;> simp
@[simp] theorem Channel.release_phase (c : Channel) (now : Nat) (l : Bool) : (c.release now l).phase = c.phase := by unfold Channel.release; split; rfl; split <;> simp
@[simp] theorem Channel.release_stepFaults (c : Channel) (now : Nat) (l : Bool) : (c.release now l).stepFaults = c.stepFaults := by unfold Channel.release; split; rfl; split <;> simp
@[simp] theorem Channel.release_reverseFaults (c : Channel) (now : Nat) (l : Bool) : (c.release now l).reverseFaults = c.reverseFaults := by unfold Channel.release; split; rfl; split <;> simp
@[simp] theorem Channel.release_speedFaults (c : Channel) (now : Nat) (l : Bool) : (c.release now l).speedFaults = c.speedFaults := by unfold Channel.release; split; rfl; split <;> simp
@[simp] theorem Channel.release_summary (c : Channel) (now : Nat) (l : Bool) : (c.release now l).summary = c.summary := by unfold Channel.release; split; rfl; split <;> simp
@[simp] theorem Channel.release_ring (c : Channel) (now : Nat) (l : Bool) : (c.release now l).ring = c.ring := by unfold Channel.release; split; rfl; split <;> simp
@[simp] theorem Channel.release_settled (c : Channel) (now : Nat) (l : Bool) : (c.release now l).settled = c.settled := by unfold Channel.release; split; rfl; split <;> simp
@[simp] theorem Channel.release_trips (c : Channel) (now : Nat) (l : Bool) : (c.release now l).trips = c.trips := by unfold Channel.release; split; rfl; split <;> simp
@[simp] theorem Channel.release_stallTimer (c : Channel) (now : Nat) (l : Bool) : (c.release now l).stallTimer = c.stallTimer := by unfold Channel.release; split; rfl; split <;> simp
@[simp] theorem Channel.release_lastF (c : Channel) (now : Nat) (l : Bool) : (c.release now l).lastF = c.lastF := by unfold Channel.release; split; rfl; split <;> simp
@[simp] theorem Channel.release_lastT (c : Channel) (now : Nat) (l : Bool) : (c.release now l).lastT = c.lastT := by unfold Channel.release; split; rfl; split <;> simp
@[simp] theorem Channel.release_strip (c : Channel) (now : Nat) (l : Bool) : (c.release now l).strip = c.strip := by unfold Channel.release; split; rfl; split <;> simp
@[simp] theorem Channel.release_stripSampled (c : Channel) (now : Nat) (l : Bool) : (c.release now l).stripSampled = c.stripSampled := by unfold Channel.release; split; rfl; split <;> simp
@[simp] theorem Channel.release_zones (c : Channel) (now : Nat) (l : Bool) : (c.release now l).zones = c.zones := by unfold Channel.release; split; rfl; split <;> simp
@[simp] theorem Channel.release_accum (c : Channel) (now : Nat) (l : Bool) : (c.release now l).accum = c.accum := by unfold Channel.release; split; rfl; split <;> simp
@[simp] theorem Channel.release_mstate (c : Channel) (now : Nat) (l : Bool) : (c.release now l).mstate = c.mstate := by unfold Channel.release; split; rfl; split <;> simp
@[simp] theorem Channel.release_stopCause (c : Channel) (now : Nat) (l : Bool) : (c.release now l).stopCause = c.stopCause := by unfold Channel.release; split; rfl; split <;> simp
@[simp] theorem Channel.release_bridge (c : Channel) (now : Nat) (l : Bool) : (c.release now l).bridge = c.bridge := by unfold Channel.release; split; rfl; split <;> simp
@[simp] theorem Channel.release_switched1 (c : Channel) (now : Nat) (l : Bool) : (c.release now l).switched1 = c.switched1 := by unfold Channel.release; split; rfl; split <;> simp
@[simp] theorem Channel.release_switched2 (c : Channel) (now : Nat) (l : Bool) : (c.release now l).switched2 = c.switched2 := by unfold Channel.release; split; rfl; split <;> simp
@[simp] theorem Channel.release_duty (c : Channel) (now : Nat) (l : Bool) : (c.release now l).duty = c.duty := by unfold Channel.release; split; rfl; split <;> simp
@[simp] theorem Channel.release_runDuty (c : Channel) (now : Nat) (l : Bool) : (c.release now l).runDuty = c.runDuty := by unfold Channel.release; split; rfl; split <;> simp
@[simp] theorem Channel.release_ramp (c : Channel) (now : Nat) (l : Bool) : (c.release now l).ramp = c.ramp := by unfold Channel.release; split; rfl; split <;> simp
@[simp] theorem Channel.release_brakeTimer (c : Channel) (now : Nat) (l : Bool) : (c.release now l).brakeTimer = c.brakeTimer := by unfold Channel.release; split; rfl; split <;> simp
@[simp] theorem Channel.release_runSince (c : Channel) (now : Nat) (l : Bool) : (c.release now l).runSince = c.runSince := by unfold Channel.release; split; rfl; split <;> simp
@[simp] theorem Channel.release_allowed (c : Channel) (now : Nat) (l : Bool) : (c.release now l).allowed = c.allowed := by unfold Channel.release; split; rfl; split <;> simp
@[simp] theorem Channel.release_strikes (c : Channel) (now : Nat) (l : Bool) : (c.release now l).strikes = c.strikes := by unfold Channel.release; split; rfl; split <;> simp
@[simp] theorem Channel.release_strikeTimer (c : Channel) (now : Nat) (l : Bool) : (c.release now l).strikeTimer = c.strikeTimer := by unfold Channel.release; split; rfl; split <;> simp

@[simp] theorem Channel.release_owner (c : Channel) (now : Nat) (l : Bool) : (c.release now l).owner = none := by
  unfold Channel.release; split
  · next h => exact h
  · rfl

/-- The record of a channel with an owner loses its owner; another record is left as it is (R112). -/
theorem Channel.release_motion (c : Channel) (now : Nat) (l : Bool) :
    (c.release now l).motion =
      if c.owner = none then c.motion else c.motion.map fun m => { m with owner := none } := by
  unfold Channel.release; split
  · next h => simp [h]
  · next h => split <;> simp [h]

/-- Releasing an owner stops the hold timer (R122). -/
theorem Channel.release_holdTimer (c : Channel) (now : Nat) (l : Bool) :
    (c.release now l).holdTimer = if c.owner = none then c.holdTimer else none := by
  unfold Channel.release; split <;> simp [*]

/-- No latch is set where the release says so (R123, R124). -/
theorem Channel.release_latches_false (c : Channel) (now : Nat) : (c.release now false).latches = c.latches := by
  unfold Channel.release; split <;> simp

/-! ### endSeek -/

@[simp] theorem Channel.endSeek_tune (c : Channel) (x : StopCause) : (c.endSeek x).tune = c.tune := by unfold Channel.endSeek; split <;> rfl
@[simp] theorem Channel.endSeek_hallA (c : Channel) (x : StopCause) : (c.endSeek x).hallA = c.hallA := by unfold Channel.endSeek; split <;> rfl
@[simp] theorem Channel.endSeek_hallB (c : Channel) (x : StopCause) : (c.endSeek x).hallB = c.hallB := by unfold Channel.endSeek; split <;> rfl
@[simp] theorem Channel.endSeek_hallSampled (c : Channel) (x : StopCause) : (c.endSeek x).hallSampled = c.hallSampled := by unfold Channel.endSeek; split <;> rfl
@[simp] theorem Channel.endSeek_position (c : Channel) (x : StopCause) : (c.endSeek x).position = c.position := by unfold Channel.endSeek; split <;> rfl
@[simp] theorem Channel.endSeek_edged (c : Channel) (x : StopCause) : (c.endSeek x).edged = c.edged := by unfold Channel.endSeek; split <;> rfl
@[simp] theorem Channel.endSeek_lastEdge (c : Channel) (x : StopCause) : (c.endSeek x).lastEdge = c.lastEdge := by unfold Channel.endSeek; split <;> rfl
@[simp] theorem Channel.endSeek_phase (c : Channel) (x : StopCause) : (c.endSeek x).phase = c.phase := by unfold Channel.endSeek; split <;> rfl
@[simp] theorem Channel.endSeek_stepFaults (c : Channel) (x : StopCause) : (c.endSeek x).stepFaults = c.stepFaults := by unfold Channel.endSeek; split <;> rfl
@[simp] theorem Channel.endSeek_reverseFaults (c : Channel) (x : StopCause) : (c.endSeek x).reverseFaults = c.reverseFaults := by unfold Channel.endSeek; split <;> rfl
@[simp] theorem Channel.endSeek_speedFaults (c : Channel) (x : StopCause) : (c.endSeek x).speedFaults = c.speedFaults := by unfold Channel.endSeek; split <;> rfl
@[simp] theorem Channel.endSeek_summary (c : Channel) (x : StopCause) : (c.endSeek x).summary = c.summary := by unfold Channel.endSeek; split <;> rfl
@[simp] theorem Channel.endSeek_ring (c : Channel) (x : StopCause) : (c.endSeek x).ring = c.ring := by unfold Channel.endSeek; split <;> rfl
@[simp] theorem Channel.endSeek_settled (c : Channel) (x : StopCause) : (c.endSeek x).settled = c.settled := by unfold Channel.endSeek; split <;> rfl
@[simp] theorem Channel.endSeek_stallTimer (c : Channel) (x : StopCause) : (c.endSeek x).stallTimer = c.stallTimer := by unfold Channel.endSeek; split <;> rfl
@[simp] theorem Channel.endSeek_lastF (c : Channel) (x : StopCause) : (c.endSeek x).lastF = c.lastF := by unfold Channel.endSeek; split <;> rfl
@[simp] theorem Channel.endSeek_lastT (c : Channel) (x : StopCause) : (c.endSeek x).lastT = c.lastT := by unfold Channel.endSeek; split <;> rfl
@[simp] theorem Channel.endSeek_strip (c : Channel) (x : StopCause) : (c.endSeek x).strip = c.strip := by unfold Channel.endSeek; split <;> rfl
@[simp] theorem Channel.endSeek_stripSampled (c : Channel) (x : StopCause) : (c.endSeek x).stripSampled = c.stripSampled := by unfold Channel.endSeek; split <;> rfl
@[simp] theorem Channel.endSeek_zones (c : Channel) (x : StopCause) : (c.endSeek x).zones = c.zones := by unfold Channel.endSeek; split <;> rfl
@[simp] theorem Channel.endSeek_accum (c : Channel) (x : StopCause) : (c.endSeek x).accum = c.accum := by unfold Channel.endSeek; split <;> rfl
@[simp] theorem Channel.endSeek_mstate (c : Channel) (x : StopCause) : (c.endSeek x).mstate = c.mstate := by unfold Channel.endSeek; split <;> rfl
@[simp] theorem Channel.endSeek_motion (c : Channel) (x : StopCause) : (c.endSeek x).motion = c.motion := by unfold Channel.endSeek; split <;> rfl
@[simp] theorem Channel.endSeek_stopCause (c : Channel) (x : StopCause) : (c.endSeek x).stopCause = c.stopCause := by unfold Channel.endSeek; split <;> rfl
@[simp] theorem Channel.endSeek_bridge (c : Channel) (x : StopCause) : (c.endSeek x).bridge = c.bridge := by unfold Channel.endSeek; split <;> rfl
@[simp] theorem Channel.endSeek_switched1 (c : Channel) (x : StopCause) : (c.endSeek x).switched1 = c.switched1 := by unfold Channel.endSeek; split <;> rfl
@[simp] theorem Channel.endSeek_switched2 (c : Channel) (x : StopCause) : (c.endSeek x).switched2 = c.switched2 := by unfold Channel.endSeek; split <;> rfl
@[simp] theorem Channel.endSeek_duty (c : Channel) (x : StopCause) : (c.endSeek x).duty = c.duty := by unfold Channel.endSeek; split <;> rfl
@[simp] theorem Channel.endSeek_runDuty (c : Channel) (x : StopCause) : (c.endSeek x).runDuty = c.runDuty := by unfold Channel.endSeek; split <;> rfl
@[simp] theorem Channel.endSeek_ramp (c : Channel) (x : StopCause) : (c.endSeek x).ramp = c.ramp := by unfold Channel.endSeek; split <;> rfl
@[simp] theorem Channel.endSeek_brakeTimer (c : Channel) (x : StopCause) : (c.endSeek x).brakeTimer = c.brakeTimer := by unfold Channel.endSeek; split <;> rfl
@[simp] theorem Channel.endSeek_runSince (c : Channel) (x : StopCause) : (c.endSeek x).runSince = c.runSince := by unfold Channel.endSeek; split <;> rfl
@[simp] theorem Channel.endSeek_owner (c : Channel) (x : StopCause) : (c.endSeek x).owner = c.owner := by unfold Channel.endSeek; split <;> rfl
@[simp] theorem Channel.endSeek_holdTimer (c : Channel) (x : StopCause) : (c.endSeek x).holdTimer = c.holdTimer := by unfold Channel.endSeek; split <;> rfl
@[simp] theorem Channel.endSeek_latches (c : Channel) (x : StopCause) : (c.endSeek x).latches = c.latches := by unfold Channel.endSeek; split <;> rfl
@[simp] theorem Channel.endSeek_allowed (c : Channel) (x : StopCause) : (c.endSeek x).allowed = c.allowed := by unfold Channel.endSeek; split <;> rfl
@[simp] theorem Channel.endSeek_strikes (c : Channel) (x : StopCause) : (c.endSeek x).strikes = c.strikes := by unfold Channel.endSeek; split <;> rfl
@[simp] theorem Channel.endSeek_strikeTimer (c : Channel) (x : StopCause) : (c.endSeek x).strikeTimer = c.strikeTimer := by unfold Channel.endSeek; split <;> rfl

/-! ### stopWith -/

@[simp] theorem Channel.stopWith_tune (c : Channel) (now : Nat) (x : StopCause) : (c.stopWith now x).tune = c.tune := by simp [Channel.stopWith]
@[simp] theorem Channel.stopWith_hallA (c : Channel) (now : Nat) (x : StopCause) : (c.stopWith now x).hallA = c.hallA := by simp [Channel.stopWith]
@[simp] theorem Channel.stopWith_hallB (c : Channel) (now : Nat) (x : StopCause) : (c.stopWith now x).hallB = c.hallB := by simp [Channel.stopWith]
@[simp] theorem Channel.stopWith_hallSampled (c : Channel) (now : Nat) (x : StopCause) : (c.stopWith now x).hallSampled = c.hallSampled := by simp [Channel.stopWith]
@[simp] theorem Channel.stopWith_position (c : Channel) (now : Nat) (x : StopCause) : (c.stopWith now x).position = c.position := by simp [Channel.stopWith]
@[simp] theorem Channel.stopWith_edged (c : Channel) (now : Nat) (x : StopCause) : (c.stopWith now x).edged = c.edged := by simp [Channel.stopWith]
@[simp] theorem Channel.stopWith_lastEdge (c : Channel) (now : Nat) (x : StopCause) : (c.stopWith now x).lastEdge = c.lastEdge := by simp [Channel.stopWith]
@[simp] theorem Channel.stopWith_phase (c : Channel) (now : Nat) (x : StopCause) : (c.stopWith now x).phase = c.phase := by simp [Channel.stopWith]
@[simp] theorem Channel.stopWith_stepFaults (c : Channel) (now : Nat) (x : StopCause) : (c.stopWith now x).stepFaults = c.stepFaults := by simp [Channel.stopWith]
@[simp] theorem Channel.stopWith_reverseFaults (c : Channel) (now : Nat) (x : StopCause) : (c.stopWith now x).reverseFaults = c.reverseFaults := by simp [Channel.stopWith]
@[simp] theorem Channel.stopWith_speedFaults (c : Channel) (now : Nat) (x : StopCause) : (c.stopWith now x).speedFaults = c.speedFaults := by simp [Channel.stopWith]
@[simp] theorem Channel.stopWith_summary (c : Channel) (now : Nat) (x : StopCause) : (c.stopWith now x).summary = c.summary := by simp [Channel.stopWith]
@[simp] theorem Channel.stopWith_ring (c : Channel) (now : Nat) (x : StopCause) : (c.stopWith now x).ring = c.ring := by simp [Channel.stopWith]
@[simp] theorem Channel.stopWith_settled (c : Channel) (now : Nat) (x : StopCause) : (c.stopWith now x).settled = c.settled := by simp [Channel.stopWith]
@[simp] theorem Channel.stopWith_stallTimer (c : Channel) (now : Nat) (x : StopCause) : (c.stopWith now x).stallTimer = c.stallTimer := by simp [Channel.stopWith]
@[simp] theorem Channel.stopWith_lastF (c : Channel) (now : Nat) (x : StopCause) : (c.stopWith now x).lastF = c.lastF := by simp [Channel.stopWith]
@[simp] theorem Channel.stopWith_lastT (c : Channel) (now : Nat) (x : StopCause) : (c.stopWith now x).lastT = c.lastT := by simp [Channel.stopWith]
@[simp] theorem Channel.stopWith_strip (c : Channel) (now : Nat) (x : StopCause) : (c.stopWith now x).strip = c.strip := by simp [Channel.stopWith]
@[simp] theorem Channel.stopWith_stripSampled (c : Channel) (now : Nat) (x : StopCause) : (c.stopWith now x).stripSampled = c.stripSampled := by simp [Channel.stopWith]
@[simp] theorem Channel.stopWith_zones (c : Channel) (now : Nat) (x : StopCause) : (c.stopWith now x).zones = c.zones := by simp [Channel.stopWith]
@[simp] theorem Channel.stopWith_accum (c : Channel) (now : Nat) (x : StopCause) : (c.stopWith now x).accum = c.accum := by simp [Channel.stopWith]
@[simp] theorem Channel.stopWith_mstate (c : Channel) (now : Nat) (x : StopCause) : (c.stopWith now x).mstate = c.mstate := by simp [Channel.stopWith]
@[simp] theorem Channel.stopWith_bridge (c : Channel) (now : Nat) (x : StopCause) : (c.stopWith now x).bridge = c.bridge := by simp [Channel.stopWith]
@[simp] theorem Channel.stopWith_switched1 (c : Channel) (now : Nat) (x : StopCause) : (c.stopWith now x).switched1 = c.switched1 := by simp [Channel.stopWith]
@[simp] theorem Channel.stopWith_switched2 (c : Channel) (now : Nat) (x : StopCause) : (c.stopWith now x).switched2 = c.switched2 := by simp [Channel.stopWith]
@[simp] theorem Channel.stopWith_duty (c : Channel) (now : Nat) (x : StopCause) : (c.stopWith now x).duty = c.duty := by simp [Channel.stopWith]
@[simp] theorem Channel.stopWith_runDuty (c : Channel) (now : Nat) (x : StopCause) : (c.stopWith now x).runDuty = c.runDuty := by simp [Channel.stopWith]
@[simp] theorem Channel.stopWith_ramp (c : Channel) (now : Nat) (x : StopCause) : (c.stopWith now x).ramp = c.ramp := by simp [Channel.stopWith]
@[simp] theorem Channel.stopWith_brakeTimer (c : Channel) (now : Nat) (x : StopCause) : (c.stopWith now x).brakeTimer = c.brakeTimer := by simp [Channel.stopWith]
@[simp] theorem Channel.stopWith_runSince (c : Channel) (now : Nat) (x : StopCause) : (c.stopWith now x).runSince = c.runSince := by simp [Channel.stopWith]
@[simp] theorem Channel.stopWith_allowed (c : Channel) (now : Nat) (x : StopCause) : (c.stopWith now x).allowed = c.allowed := by simp [Channel.stopWith]
@[simp] theorem Channel.stopWith_strikes (c : Channel) (now : Nat) (x : StopCause) : (c.stopWith now x).strikes = c.strikes := by simp [Channel.stopWith]
@[simp] theorem Channel.stopWith_strikeTimer (c : Channel) (now : Nat) (x : StopCause) : (c.stopWith now x).strikeTimer = c.strikeTimer := by simp [Channel.stopWith]

@[simp] theorem Channel.stopWith_stopCause (c : Channel) (now : Nat) (x : StopCause) :
    (c.stopWith now x).stopCause = x := by
  simp [Channel.stopWith]

@[simp] theorem Channel.stopWith_owner (c : Channel) (now : Nat) (x : StopCause) :
    (c.stopWith now x).owner = none := by
  simp [Channel.stopWith]

/-- A stop keeps the datum unless it ends a seek (R21). -/
theorem Channel.stopWith_datum (c : Channel) (now : Nat) (x : StopCause) :
    (c.stopWith now x).datum =
      if c.datum = .seeking ∧ c.motion.map (·.mode) = some .reference ∧ x ≠ StopCause.referenced
      then .unreferenced else c.datum := by
  simp only [Channel.stopWith, Channel.release_datum, Channel.endSeek]; split <;> simp

/-- The record keeps everything but its owner (R90). -/
theorem Channel.stopWith_motion (c : Channel) (now : Nat) (x : StopCause) :
    (c.stopWith now x).motion =
      if c.owner = none then c.motion else c.motion.map fun m => { m with owner := none } := by
  simp [Channel.stopWith, Channel.release_motion]

theorem Channel.stopWith_holdTimer (c : Channel) (now : Nat) (x : StopCause) :
    (c.stopWith now x).holdTimer = if c.owner = none then c.holdTimer else none := by
  simp [Channel.stopWith, Channel.release_holdTimer]

/-- The expiry of the owner's own hold timer sets no latch (R124). -/
theorem Channel.stopWith_timeout_latches (c : Channel) (now : Nat) :
    (c.stopWith now .timeout).latches = c.latches := by
  simp [Channel.stopWith, Channel.release_latches_false]

/-! ### enterBraking -/

@[simp] theorem Channel.enterBraking_tune (c : Channel) (now : Nat) (x : Brake) : (c.enterBraking now x).tune = c.tune := by simp [Channel.enterBraking]
@[simp] theorem Channel.enterBraking_hallA (c : Channel) (now : Nat) (x : Brake) : (c.enterBraking now x).hallA = c.hallA := by simp [Channel.enterBraking]
@[simp] theorem Channel.enterBraking_hallB (c : Channel) (now : Nat) (x : Brake) : (c.enterBraking now x).hallB = c.hallB := by simp [Channel.enterBraking]
@[simp] theorem Channel.enterBraking_hallSampled (c : Channel) (now : Nat) (x : Brake) : (c.enterBraking now x).hallSampled = c.hallSampled := by simp [Channel.enterBraking]
@[simp] theorem Channel.enterBraking_position (c : Channel) (now : Nat) (x : Brake) : (c.enterBraking now x).position = c.position := by simp [Channel.enterBraking]
@[simp] theorem Channel.enterBraking_datum (c : Channel) (now : Nat) (x : Brake) : (c.enterBraking now x).datum = c.datum := by simp [Channel.enterBraking]
@[simp] theorem Channel.enterBraking_edged (c : Channel) (now : Nat) (x : Brake) : (c.enterBraking now x).edged = c.edged := by simp [Channel.enterBraking]
@[simp] theorem Channel.enterBraking_lastEdge (c : Channel) (now : Nat) (x : Brake) : (c.enterBraking now x).lastEdge = c.lastEdge := by simp [Channel.enterBraking]
@[simp] theorem Channel.enterBraking_stepFaults (c : Channel) (now : Nat) (x : Brake) : (c.enterBraking now x).stepFaults = c.stepFaults := by simp [Channel.enterBraking]
@[simp] theorem Channel.enterBraking_reverseFaults (c : Channel) (now : Nat) (x : Brake) : (c.enterBraking now x).reverseFaults = c.reverseFaults := by simp [Channel.enterBraking]
@[simp] theorem Channel.enterBraking_speedFaults (c : Channel) (now : Nat) (x : Brake) : (c.enterBraking now x).speedFaults = c.speedFaults := by simp [Channel.enterBraking]
@[simp] theorem Channel.enterBraking_summary (c : Channel) (now : Nat) (x : Brake) : (c.enterBraking now x).summary = c.summary := by simp [Channel.enterBraking]
@[simp] theorem Channel.enterBraking_ring (c : Channel) (now : Nat) (x : Brake) : (c.enterBraking now x).ring = c.ring := by simp [Channel.enterBraking]
@[simp] theorem Channel.enterBraking_settled (c : Channel) (now : Nat) (x : Brake) : (c.enterBraking now x).settled = c.settled := by simp [Channel.enterBraking]
@[simp] theorem Channel.enterBraking_lastF (c : Channel) (now : Nat) (x : Brake) : (c.enterBraking now x).lastF = c.lastF := by simp [Channel.enterBraking]
@[simp] theorem Channel.enterBraking_lastT (c : Channel) (now : Nat) (x : Brake) : (c.enterBraking now x).lastT = c.lastT := by simp [Channel.enterBraking]
@[simp] theorem Channel.enterBraking_strip (c : Channel) (now : Nat) (x : Brake) : (c.enterBraking now x).strip = c.strip := by simp [Channel.enterBraking]
@[simp] theorem Channel.enterBraking_stripSampled (c : Channel) (now : Nat) (x : Brake) : (c.enterBraking now x).stripSampled = c.stripSampled := by simp [Channel.enterBraking]
@[simp] theorem Channel.enterBraking_zones (c : Channel) (now : Nat) (x : Brake) : (c.enterBraking now x).zones = c.zones := by simp [Channel.enterBraking]
@[simp] theorem Channel.enterBraking_accum (c : Channel) (now : Nat) (x : Brake) : (c.enterBraking now x).accum = c.accum := by simp [Channel.enterBraking]
@[simp] theorem Channel.enterBraking_stopCause (c : Channel) (now : Nat) (x : Brake) : (c.enterBraking now x).stopCause = c.stopCause := by simp [Channel.enterBraking]
@[simp] theorem Channel.enterBraking_runDuty (c : Channel) (now : Nat) (x : Brake) : (c.enterBraking now x).runDuty = c.runDuty := by simp [Channel.enterBraking]
@[simp] theorem Channel.enterBraking_owner (c : Channel) (now : Nat) (x : Brake) : (c.enterBraking now x).owner = c.owner := by simp [Channel.enterBraking]
@[simp] theorem Channel.enterBraking_holdTimer (c : Channel) (now : Nat) (x : Brake) : (c.enterBraking now x).holdTimer = c.holdTimer := by simp [Channel.enterBraking]
@[simp] theorem Channel.enterBraking_latches (c : Channel) (now : Nat) (x : Brake) : (c.enterBraking now x).latches = c.latches := by simp [Channel.enterBraking]
@[simp] theorem Channel.enterBraking_allowed (c : Channel) (now : Nat) (x : Brake) : (c.enterBraking now x).allowed = c.allowed := by simp [Channel.enterBraking]
@[simp] theorem Channel.enterBraking_strikes (c : Channel) (now : Nat) (x : Brake) : (c.enterBraking now x).strikes = c.strikes := by simp [Channel.enterBraking]
@[simp] theorem Channel.enterBraking_strikeTimer (c : Channel) (now : Nat) (x : Brake) : (c.enterBraking now x).strikeTimer = c.strikeTimer := by simp [Channel.enterBraking]

@[simp] theorem Channel.enterBraking_mstate (c : Channel) (now : Nat) (x : Brake) :
    (c.enterBraking now x).mstate = .braking := by simp [Channel.enterBraking]
@[simp] theorem Channel.enterBraking_bridge (c : Channel) (now : Nat) (x : Brake) :
    (c.enterBraking now x).bridge = .brake := by simp [Channel.enterBraking]
@[simp] theorem Channel.enterBraking_duty (c : Channel) (now : Nat) (x : Brake) :
    (c.enterBraking now x).duty = 0 := by simp [Channel.enterBraking]
@[simp] theorem Channel.enterBraking_brakeTimer (c : Channel) (now : Nat) (x : Brake) :
    (c.enterBraking now x).brakeTimer = some (now / Config.usPerMs + c.tune.brake) := by
  simp [Channel.enterBraking, startTimer]
@[simp] theorem Channel.enterBraking_ramp (c : Channel) (now : Nat) (x : Brake) :
    (c.enterBraking now x).ramp = none := by simp [Channel.enterBraking]
@[simp] theorem Channel.enterBraking_runSince (c : Channel) (now : Nat) (x : Brake) :
    (c.enterBraking now x).runSince = none := by simp [Channel.enterBraking]

/-- The record at the entry to BRAKING: run-time frozen, its brake fields set (R89, R91). -/
theorem Channel.enterBraking_motion (c : Channel) (now : Nat) (x : Brake) :
    (c.enterBraking now x).motion = c.motion.map fun m => { m with
      runTime := min c.tune.runLimit (c.runElapsed now), braking := some x, pausedFrom := none } := by
  simp [Channel.enterBraking, Option.map_map, Function.comp_def]

/-- Leaving RUNNING ends a run of trips (R28). -/
theorem Channel.enterBraking_trips (c : Channel) (now : Nat) (x : Brake) :
    (c.enterBraking now x).trips = if c.mstate = .running then 0 else c.trips := by
  simp [Channel.enterBraking, Channel.setMState_trips]

theorem Channel.enterBraking_statusDue (c : Channel) (now : Nat) (x : Brake) :
    (c.enterBraking now x).statusDue = (c.statusDue || decide (c.mstate ≠ .braking)) := by
  simp [Channel.enterBraking, Channel.setMState_statusDue]

/-- The stall timer stops with the drive (R39). -/
theorem Channel.enterBraking_stallTimer {c : Channel} (h : c.bridge ≠ .brake) (now : Nat) (x : Brake) :
    (c.enterBraking now x).stallTimer = none := by
  unfold Channel.enterBraking
  rw [Channel.setBridge_stallTimer (by simpa using h.symm)]; rfl

/-- The drive phase ends with the drive (R9). -/
theorem Channel.enterBraking_phase {c : Channel} (h : c.bridge ≠ .brake) (now : Nat) (x : Brake) :
    (c.enterBraking now x).phase = none := by
  unfold Channel.enterBraking
  rw [Channel.setBridge_phase (by simpa using h.symm)]; rfl

/-! ### handEnd -/

@[simp] theorem Channel.handEnd_tune (c : Channel) : (c.handEnd).tune = c.tune := by unfold Channel.handEnd; split; rfl; dsimp only; split <;> split <;> rfl
@[simp] theorem Channel.handEnd_hallA (c : Channel) : (c.handEnd).hallA = c.hallA := by unfold Channel.handEnd; split; rfl; dsimp only; split <;> split <;> rfl
@[simp] theorem Channel.handEnd_hallB (c : Channel) : (c.handEnd).hallB = c.hallB := by unfold Channel.handEnd; split; rfl; dsimp only; split <;> split <;> rfl
@[simp] theorem Channel.handEnd_hallSampled (c : Channel) : (c.handEnd).hallSampled = c.hallSampled := by unfold Channel.handEnd; split; rfl; dsimp only; split <;> split <;> rfl
@[simp] theorem Channel.handEnd_position (c : Channel) : (c.handEnd).position = c.position := by unfold Channel.handEnd; split; rfl; dsimp only; split <;> split <;> rfl
@[simp] theorem Channel.handEnd_datum (c : Channel) : (c.handEnd).datum = c.datum := by unfold Channel.handEnd; split; rfl; dsimp only; split <;> split <;> rfl
@[simp] theorem Channel.handEnd_edged (c : Channel) : (c.handEnd).edged = c.edged := by unfold Channel.handEnd; split; rfl; dsimp only; split <;> split <;> rfl
@[simp] theorem Channel.handEnd_lastEdge (c : Channel) : (c.handEnd).lastEdge = c.lastEdge := by unfold Channel.handEnd; split; rfl; dsimp only; split <;> split <;> rfl
@[simp] theorem Channel.handEnd_phase (c : Channel) : (c.handEnd).phase = c.phase := by unfold Channel.handEnd; split; rfl; dsimp only; split <;> split <;> rfl
@[simp] theorem Channel.handEnd_stepFaults (c : Channel) : (c.handEnd).stepFaults = c.stepFaults := by unfold Channel.handEnd; split; rfl; dsimp only; split <;> split <;> rfl
@[simp] theorem Channel.handEnd_reverseFaults (c : Channel) : (c.handEnd).reverseFaults = c.reverseFaults := by unfold Channel.handEnd; split; rfl; dsimp only; split <;> split <;> rfl
@[simp] theorem Channel.handEnd_speedFaults (c : Channel) : (c.handEnd).speedFaults = c.speedFaults := by unfold Channel.handEnd; split; rfl; dsimp only; split <;> split <;> rfl
@[simp] theorem Channel.handEnd_summary (c : Channel) : (c.handEnd).summary = c.summary := by unfold Channel.handEnd; split; rfl; dsimp only; split <;> split <;> rfl
@[simp] theorem Channel.handEnd_ring (c : Channel) : (c.handEnd).ring = c.ring := by unfold Channel.handEnd; split; rfl; dsimp only; split <;> split <;> rfl
@[simp] theorem Channel.handEnd_settled (c : Channel) : (c.handEnd).settled = c.settled := by unfold Channel.handEnd; split; rfl; dsimp only; split <;> split <;> rfl
@[simp] theorem Channel.handEnd_trips (c : Channel) : (c.handEnd).trips = c.trips := by unfold Channel.handEnd; split; rfl; dsimp only; split <;> split <;> rfl
@[simp] theorem Channel.handEnd_stallTimer (c : Channel) : (c.handEnd).stallTimer = c.stallTimer := by unfold Channel.handEnd; split; rfl; dsimp only; split <;> split <;> rfl
@[simp] theorem Channel.handEnd_lastF (c : Channel) : (c.handEnd).lastF = c.lastF := by unfold Channel.handEnd; split; rfl; dsimp only; split <;> split <;> rfl
@[simp] theorem Channel.handEnd_lastT (c : Channel) : (c.handEnd).lastT = c.lastT := by unfold Channel.handEnd; split; rfl; dsimp only; split <;> split <;> rfl
@[simp] theorem Channel.handEnd_strip (c : Channel) : (c.handEnd).strip = c.strip := by unfold Channel.handEnd; split; rfl; dsimp only; split <;> split <;> rfl
@[simp] theorem Channel.handEnd_stripSampled (c : Channel) : (c.handEnd).stripSampled = c.stripSampled := by unfold Channel.handEnd; split; rfl; dsimp only; split <;> split <;> rfl
@[simp] theorem Channel.handEnd_accum (c : Channel) : (c.handEnd).accum = c.accum := by unfold Channel.handEnd; split; rfl; dsimp only; split <;> split <;> rfl
@[simp] theorem Channel.handEnd_mstate (c : Channel) : (c.handEnd).mstate = c.mstate := by unfold Channel.handEnd; split; rfl; dsimp only; split <;> split <;> rfl
@[simp] theorem Channel.handEnd_motion (c : Channel) : (c.handEnd).motion = c.motion := by unfold Channel.handEnd; split; rfl; dsimp only; split <;> split <;> rfl
@[simp] theorem Channel.handEnd_stopCause (c : Channel) : (c.handEnd).stopCause = c.stopCause := by unfold Channel.handEnd; split; rfl; dsimp only; split <;> split <;> rfl
@[simp] theorem Channel.handEnd_bridge (c : Channel) : (c.handEnd).bridge = c.bridge := by unfold Channel.handEnd; split; rfl; dsimp only; split <;> split <;> rfl
@[simp] theorem Channel.handEnd_switched1 (c : Channel) : (c.handEnd).switched1 = c.switched1 := by unfold Channel.handEnd; split; rfl; dsimp only; split <;> split <;> rfl
@[simp] theorem Channel.handEnd_switched2 (c : Channel) : (c.handEnd).switched2 = c.switched2 := by unfold Channel.handEnd; split; rfl; dsimp only; split <;> split <;> rfl
@[simp] theorem Channel.handEnd_duty (c : Channel) : (c.handEnd).duty = c.duty := by unfold Channel.handEnd; split; rfl; dsimp only; split <;> split <;> rfl
@[simp] theorem Channel.handEnd_runDuty (c : Channel) : (c.handEnd).runDuty = c.runDuty := by unfold Channel.handEnd; split; rfl; dsimp only; split <;> split <;> rfl
@[simp] theorem Channel.handEnd_ramp (c : Channel) : (c.handEnd).ramp = c.ramp := by unfold Channel.handEnd; split; rfl; dsimp only; split <;> split <;> rfl
@[simp] theorem Channel.handEnd_brakeTimer (c : Channel) : (c.handEnd).brakeTimer = c.brakeTimer := by unfold Channel.handEnd; split; rfl; dsimp only; split <;> split <;> rfl
@[simp] theorem Channel.handEnd_runSince (c : Channel) : (c.handEnd).runSince = c.runSince := by unfold Channel.handEnd; split; rfl; dsimp only; split <;> split <;> rfl
@[simp] theorem Channel.handEnd_owner (c : Channel) : (c.handEnd).owner = c.owner := by unfold Channel.handEnd; split; rfl; dsimp only; split <;> split <;> rfl
@[simp] theorem Channel.handEnd_holdTimer (c : Channel) : (c.handEnd).holdTimer = c.holdTimer := by unfold Channel.handEnd; split; rfl; dsimp only; split <;> split <;> rfl
@[simp] theorem Channel.handEnd_latches (c : Channel) : (c.handEnd).latches = c.latches := by unfold Channel.handEnd; split; rfl; dsimp only; split <;> split <;> rfl
@[simp] theorem Channel.handEnd_allowed (c : Channel) : (c.handEnd).allowed = c.allowed := by unfold Channel.handEnd; split; rfl; dsimp only; split <;> split <;> rfl

/-- A clean close adapts the zone table (R64, R65). -/
theorem Channel.handEnd_zones (c : Channel) :
    c.handEnd.zones = match c.motion with
      | some m => if cleanClose c.stopCause m then List.zipWith (adaptZone c.tune.ladapt) c.zones c.accum else c.zones
      | none => c.zones := by
  unfold Channel.handEnd; split
  · simp [*]
  · next m h => simp only [h]; split <;> split <;> rfl

/-- An end with CLOSED and without an incident returns the strikes to 0 (R160). -/
theorem Channel.handEnd_strikes (c : Channel) :
    c.handEnd.strikes = match c.motion with
      | some m => if c.stopCause = .closed ∧ m.incidentFree = true then 0 else c.strikes
      | none => c.strikes := by
  unfold Channel.handEnd; split
  · simp [*]
  · next m h =>
    simp only [h]; split
    · rw [if_congr (show (c.adapt.stopCause = .closed ∧ m.incidentFree = true) ↔ (c.stopCause = .closed ∧ m.incidentFree = true) from Iff.rfl) rfl rfl]
      split <;> rfl
    · split <;> rfl

/-! ### enterIdle -/

@[simp] theorem Channel.enterIdle_tune (c : Channel) (now : Nat) : (c.enterIdle now).tune = c.tune := by simp [Channel.enterIdle]
@[simp] theorem Channel.enterIdle_hallA (c : Channel) (now : Nat) : (c.enterIdle now).hallA = c.hallA := by simp [Channel.enterIdle]
@[simp] theorem Channel.enterIdle_hallB (c : Channel) (now : Nat) : (c.enterIdle now).hallB = c.hallB := by simp [Channel.enterIdle]
@[simp] theorem Channel.enterIdle_hallSampled (c : Channel) (now : Nat) : (c.enterIdle now).hallSampled = c.hallSampled := by simp [Channel.enterIdle]
@[simp] theorem Channel.enterIdle_position (c : Channel) (now : Nat) : (c.enterIdle now).position = c.position := by simp [Channel.enterIdle]
@[simp] theorem Channel.enterIdle_datum (c : Channel) (now : Nat) : (c.enterIdle now).datum = c.datum := by simp [Channel.enterIdle]
@[simp] theorem Channel.enterIdle_edged (c : Channel) (now : Nat) : (c.enterIdle now).edged = c.edged := by simp [Channel.enterIdle]
@[simp] theorem Channel.enterIdle_lastEdge (c : Channel) (now : Nat) : (c.enterIdle now).lastEdge = c.lastEdge := by simp [Channel.enterIdle]
@[simp] theorem Channel.enterIdle_stepFaults (c : Channel) (now : Nat) : (c.enterIdle now).stepFaults = c.stepFaults := by simp [Channel.enterIdle]
@[simp] theorem Channel.enterIdle_reverseFaults (c : Channel) (now : Nat) : (c.enterIdle now).reverseFaults = c.reverseFaults := by simp [Channel.enterIdle]
@[simp] theorem Channel.enterIdle_speedFaults (c : Channel) (now : Nat) : (c.enterIdle now).speedFaults = c.speedFaults := by simp [Channel.enterIdle]
@[simp] theorem Channel.enterIdle_summary (c : Channel) (now : Nat) : (c.enterIdle now).summary = c.summary := by simp [Channel.enterIdle]
@[simp] theorem Channel.enterIdle_ring (c : Channel) (now : Nat) : (c.enterIdle now).ring = c.ring := by simp [Channel.enterIdle]
@[simp] theorem Channel.enterIdle_settled (c : Channel) (now : Nat) : (c.enterIdle now).settled = c.settled := by simp [Channel.enterIdle]
@[simp] theorem Channel.enterIdle_lastF (c : Channel) (now : Nat) : (c.enterIdle now).lastF = c.lastF := by simp [Channel.enterIdle]
@[simp] theorem Channel.enterIdle_lastT (c : Channel) (now : Nat) : (c.enterIdle now).lastT = c.lastT := by simp [Channel.enterIdle]
@[simp] theorem Channel.enterIdle_strip (c : Channel) (now : Nat) : (c.enterIdle now).strip = c.strip := by simp [Channel.enterIdle]
@[simp] theorem Channel.enterIdle_stripSampled (c : Channel) (now : Nat) : (c.enterIdle now).stripSampled = c.stripSampled := by simp [Channel.enterIdle]
@[simp] theorem Channel.enterIdle_accum (c : Channel) (now : Nat) : (c.enterIdle now).accum = c.accum := by simp [Channel.enterIdle]
@[simp] theorem Channel.enterIdle_stopCause (c : Channel) (now : Nat) : (c.enterIdle now).stopCause = c.stopCause := by simp [Channel.enterIdle]
@[simp] theorem Channel.enterIdle_runDuty (c : Channel) (now : Nat) : (c.enterIdle now).runDuty = c.runDuty := by simp [Channel.enterIdle]
@[simp] theorem Channel.enterIdle_allowed (c : Channel) (now : Nat) : (c.enterIdle now).allowed = c.allowed := by simp [Channel.enterIdle]

@[simp] theorem Channel.enterIdle_mstate (c : Channel) (now : Nat) : (c.enterIdle now).mstate = .idle := by
  simp [Channel.enterIdle]
@[simp] theorem Channel.enterIdle_motion (c : Channel) (now : Nat) : (c.enterIdle now).motion = none := by
  simp [Channel.enterIdle]
@[simp] theorem Channel.enterIdle_bridge (c : Channel) (now : Nat) : (c.enterIdle now).bridge = .off := by
  simp [Channel.enterIdle]
@[simp] theorem Channel.enterIdle_duty (c : Channel) (now : Nat) : (c.enterIdle now).duty = 0 := by
  simp [Channel.enterIdle]
@[simp] theorem Channel.enterIdle_owner (c : Channel) (now : Nat) : (c.enterIdle now).owner = none := by
  simp [Channel.enterIdle]
@[simp] theorem Channel.enterIdle_ramp (c : Channel) (now : Nat) : (c.enterIdle now).ramp = none := by
  simp [Channel.enterIdle]
@[simp] theorem Channel.enterIdle_brakeTimer (c : Channel) (now : Nat) : (c.enterIdle now).brakeTimer = none := by
  simp [Channel.enterIdle]
@[simp] theorem Channel.enterIdle_runSince (c : Channel) (now : Nat) : (c.enterIdle now).runSince = none := by
  simp [Channel.enterIdle]
theorem Channel.enterIdle_zones (c : Channel) (now : Nat) : (c.enterIdle now).zones = c.handEnd.zones := by
  simp [Channel.enterIdle]
theorem Channel.enterIdle_strikes (c : Channel) (now : Nat) : (c.enterIdle now).strikes = c.handEnd.strikes := by
  simp [Channel.enterIdle]
theorem Channel.enterIdle_holdTimer (c : Channel) (now : Nat) :
    (c.enterIdle now).holdTimer = if c.owner = none then c.holdTimer else none := by
  simp [Channel.enterIdle, Channel.release_holdTimer]
/-- The entry to IDLE queues the STATUS (R79, R107). -/
theorem Channel.enterIdle_statusDue {c : Channel} (h : c.mstate ≠ .idle) (now : Nat) :
    (c.enterIdle now).statusDue = true := by
  simp [Channel.enterIdle, Channel.setMState_statusDue, h]

/-! ### endMotion -/

@[simp] theorem Channel.endMotion_tune (c : Channel) (now : Nat) (x : StopCause) : (c.endMotion now x).tune = c.tune := by simp [Channel.endMotion]
@[simp] theorem Channel.endMotion_hallA (c : Channel) (now : Nat) (x : StopCause) : (c.endMotion now x).hallA = c.hallA := by simp [Channel.endMotion]
@[simp] theorem Channel.endMotion_hallB (c : Channel) (now : Nat) (x : StopCause) : (c.endMotion now x).hallB = c.hallB := by simp [Channel.endMotion]
@[simp] theorem Channel.endMotion_hallSampled (c : Channel) (now : Nat) (x : StopCause) : (c.endMotion now x).hallSampled = c.hallSampled := by simp [Channel.endMotion]
@[simp] theorem Channel.endMotion_position (c : Channel) (now : Nat) (x : StopCause) : (c.endMotion now x).position = c.position := by simp [Channel.endMotion]
@[simp] theorem Channel.endMotion_edged (c : Channel) (now : Nat) (x : StopCause) : (c.endMotion now x).edged = c.edged := by simp [Channel.endMotion]
@[simp] theorem Channel.endMotion_lastEdge (c : Channel) (now : Nat) (x : StopCause) : (c.endMotion now x).lastEdge = c.lastEdge := by simp [Channel.endMotion]
@[simp] theorem Channel.endMotion_stepFaults (c : Channel) (now : Nat) (x : StopCause) : (c.endMotion now x).stepFaults = c.stepFaults := by simp [Channel.endMotion]
@[simp] theorem Channel.endMotion_reverseFaults (c : Channel) (now : Nat) (x : StopCause) : (c.endMotion now x).reverseFaults = c.reverseFaults := by simp [Channel.endMotion]
@[simp] theorem Channel.endMotion_speedFaults (c : Channel) (now : Nat) (x : StopCause) : (c.endMotion now x).speedFaults = c.speedFaults := by simp [Channel.endMotion]
@[simp] theorem Channel.endMotion_summary (c : Channel) (now : Nat) (x : StopCause) : (c.endMotion now x).summary = c.summary := by simp [Channel.endMotion]
@[simp] theorem Channel.endMotion_ring (c : Channel) (now : Nat) (x : StopCause) : (c.endMotion now x).ring = c.ring := by simp [Channel.endMotion]
@[simp] theorem Channel.endMotion_settled (c : Channel) (now : Nat) (x : StopCause) : (c.endMotion now x).settled = c.settled := by simp [Channel.endMotion]
@[simp] theorem Channel.endMotion_lastF (c : Channel) (now : Nat) (x : StopCause) : (c.endMotion now x).lastF = c.lastF := by simp [Channel.endMotion]
@[simp] theorem Channel.endMotion_lastT (c : Channel) (now : Nat) (x : StopCause) : (c.endMotion now x).lastT = c.lastT := by simp [Channel.endMotion]
@[simp] theorem Channel.endMotion_strip (c : Channel) (now : Nat) (x : StopCause) : (c.endMotion now x).strip = c.strip := by simp [Channel.endMotion]
@[simp] theorem Channel.endMotion_stripSampled (c : Channel) (now : Nat) (x : StopCause) : (c.endMotion now x).stripSampled = c.stripSampled := by simp [Channel.endMotion]
@[simp] theorem Channel.endMotion_zones (c : Channel) (now : Nat) (x : StopCause) : (c.endMotion now x).zones = c.zones := by simp [Channel.endMotion]
@[simp] theorem Channel.endMotion_accum (c : Channel) (now : Nat) (x : StopCause) : (c.endMotion now x).accum = c.accum := by simp [Channel.endMotion]
@[simp] theorem Channel.endMotion_runDuty (c : Channel) (now : Nat) (x : StopCause) : (c.endMotion now x).runDuty = c.runDuty := by simp [Channel.endMotion]
@[simp] theorem Channel.endMotion_allowed (c : Channel) (now : Nat) (x : StopCause) : (c.endMotion now x).allowed = c.allowed := by simp [Channel.endMotion]
@[simp] theorem Channel.endMotion_strikes (c : Channel) (now : Nat) (x : StopCause) : (c.endMotion now x).strikes = c.strikes := by simp [Channel.endMotion]
@[simp] theorem Channel.endMotion_strikeTimer (c : Channel) (now : Nat) (x : StopCause) : (c.endMotion now x).strikeTimer = c.strikeTimer := by simp [Channel.endMotion]

@[simp] theorem Channel.endMotion_mstate (c : Channel) (now : Nat) (x : StopCause) :
    (c.endMotion now x).mstate = .braking := by simp [Channel.endMotion]
@[simp] theorem Channel.endMotion_bridge (c : Channel) (now : Nat) (x : StopCause) :
    (c.endMotion now x).bridge = .brake := by simp [Channel.endMotion]
@[simp] theorem Channel.endMotion_duty (c : Channel) (now : Nat) (x : StopCause) :
    (c.endMotion now x).duty = 0 := by simp [Channel.endMotion]
@[simp] theorem Channel.endMotion_stopCause (c : Channel) (now : Nat) (x : StopCause) :
    (c.endMotion now x).stopCause = x := by simp [Channel.endMotion]
@[simp] theorem Channel.endMotion_owner (c : Channel) (now : Nat) (x : StopCause) :
    (c.endMotion now x).owner = none := by simp [Channel.endMotion]
@[simp] theorem Channel.endMotion_ramp (c : Channel) (now : Nat) (x : StopCause) :
    (c.endMotion now x).ramp = none := by simp [Channel.endMotion]
@[simp] theorem Channel.endMotion_runSince (c : Channel) (now : Nat) (x : StopCause) :
    (c.endMotion now x).runSince = none := by simp [Channel.endMotion]
@[simp] theorem Channel.endMotion_brakeTimer (c : Channel) (now : Nat) (x : StopCause) :
    (c.endMotion now x).brakeTimer = some (now / Config.usPerMs + c.tune.brake) := by simp [Channel.endMotion]

/-- The brake of an ended motion has no follow-on (R90). -/
theorem Channel.endMotion_braking {c : Channel} (h : c.motion ≠ none) (now : Nat) (x : StopCause) :
    (c.endMotion now x).motion.bind (·.braking) = some ⟨.none, true⟩ := by
  obtain ⟨m, hm⟩ := Option.ne_none_iff_exists'.1 h
  simp only [Channel.endMotion, Channel.enterBraking_motion, Channel.stopWith_motion, hm]
  split <;> rfl

theorem Channel.endMotion_datum (c : Channel) (now : Nat) (x : StopCause) :
    (c.endMotion now x).datum =
      if c.datum = .seeking ∧ c.motion.map (·.mode) = some .reference ∧ x ≠ StopCause.referenced
      then .unreferenced else c.datum := by
  simp [Channel.endMotion, Channel.stopWith_datum]

theorem Channel.endMotion_holdTimer (c : Channel) (now : Nat) (x : StopCause) :
    (c.endMotion now x).holdTimer = if c.owner = none then c.holdTimer else none := by
  simp [Channel.endMotion, Channel.stopWith_holdTimer]

theorem Channel.endMotion_timeout_latches (c : Channel) (now : Nat) :
    (c.endMotion now .timeout).latches = c.latches := by
  simp [Channel.endMotion, Channel.stopWith_timeout_latches]

theorem Channel.endMotion_stallTimer {c : Channel} (h : c.bridge ≠ .brake) (now : Nat) (x : StopCause) :
    (c.endMotion now x).stallTimer = none := by
  unfold Channel.endMotion; exact Channel.enterBraking_stallTimer (by simpa using h) _ _

theorem Channel.endMotion_statusDue {c : Channel} (h : c.mstate ≠ .braking) (now : Nat) (x : StopCause) :
    (c.endMotion now x).statusDue = true := by
  simp [Channel.endMotion, Channel.enterBraking_statusDue, h]

/-! ### dropMotion -/

@[simp] theorem Channel.dropMotion_tune (c : Channel) (now : Nat) (x : StopCause) : (c.dropMotion now x).tune = c.tune := by simp [Channel.dropMotion]
@[simp] theorem Channel.dropMotion_hallA (c : Channel) (now : Nat) (x : StopCause) : (c.dropMotion now x).hallA = c.hallA := by simp [Channel.dropMotion]
@[simp] theorem Channel.dropMotion_hallB (c : Channel) (now : Nat) (x : StopCause) : (c.dropMotion now x).hallB = c.hallB := by simp [Channel.dropMotion]
@[simp] theorem Channel.dropMotion_hallSampled (c : Channel) (now : Nat) (x : StopCause) : (c.dropMotion now x).hallSampled = c.hallSampled := by simp [Channel.dropMotion]
@[simp] theorem Channel.dropMotion_position (c : Channel) (now : Nat) (x : StopCause) : (c.dropMotion now x).position = c.position := by simp [Channel.dropMotion]
@[simp] theorem Channel.dropMotion_edged (c : Channel) (now : Nat) (x : StopCause) : (c.dropMotion now x).edged = c.edged := by simp [Channel.dropMotion]
@[simp] theorem Channel.dropMotion_lastEdge (c : Channel) (now : Nat) (x : StopCause) : (c.dropMotion now x).lastEdge = c.lastEdge := by simp [Channel.dropMotion]
@[simp] theorem Channel.dropMotion_stepFaults (c : Channel) (now : Nat) (x : StopCause) : (c.dropMotion now x).stepFaults = c.stepFaults := by simp [Channel.dropMotion]
@[simp] theorem Channel.dropMotion_reverseFaults (c : Channel) (now : Nat) (x : StopCause) : (c.dropMotion now x).reverseFaults = c.reverseFaults := by simp [Channel.dropMotion]
@[simp] theorem Channel.dropMotion_speedFaults (c : Channel) (now : Nat) (x : StopCause) : (c.dropMotion now x).speedFaults = c.speedFaults := by simp [Channel.dropMotion]
@[simp] theorem Channel.dropMotion_summary (c : Channel) (now : Nat) (x : StopCause) : (c.dropMotion now x).summary = c.summary := by simp [Channel.dropMotion]
@[simp] theorem Channel.dropMotion_ring (c : Channel) (now : Nat) (x : StopCause) : (c.dropMotion now x).ring = c.ring := by simp [Channel.dropMotion]
@[simp] theorem Channel.dropMotion_settled (c : Channel) (now : Nat) (x : StopCause) : (c.dropMotion now x).settled = c.settled := by simp [Channel.dropMotion]
@[simp] theorem Channel.dropMotion_lastF (c : Channel) (now : Nat) (x : StopCause) : (c.dropMotion now x).lastF = c.lastF := by simp [Channel.dropMotion]
@[simp] theorem Channel.dropMotion_lastT (c : Channel) (now : Nat) (x : StopCause) : (c.dropMotion now x).lastT = c.lastT := by simp [Channel.dropMotion]
@[simp] theorem Channel.dropMotion_strip (c : Channel) (now : Nat) (x : StopCause) : (c.dropMotion now x).strip = c.strip := by simp [Channel.dropMotion]
@[simp] theorem Channel.dropMotion_stripSampled (c : Channel) (now : Nat) (x : StopCause) : (c.dropMotion now x).stripSampled = c.stripSampled := by simp [Channel.dropMotion]
@[simp] theorem Channel.dropMotion_accum (c : Channel) (now : Nat) (x : StopCause) : (c.dropMotion now x).accum = c.accum := by simp [Channel.dropMotion]
@[simp] theorem Channel.dropMotion_runDuty (c : Channel) (now : Nat) (x : StopCause) : (c.dropMotion now x).runDuty = c.runDuty := by simp [Channel.dropMotion]
@[simp] theorem Channel.dropMotion_allowed (c : Channel) (now : Nat) (x : StopCause) : (c.dropMotion now x).allowed = c.allowed := by simp [Channel.dropMotion]

@[simp] theorem Channel.dropMotion_mstate (c : Channel) (now : Nat) (x : StopCause) :
    (c.dropMotion now x).mstate = .idle := by simp [Channel.dropMotion]
@[simp] theorem Channel.dropMotion_motion (c : Channel) (now : Nat) (x : StopCause) :
    (c.dropMotion now x).motion = none := by simp [Channel.dropMotion]
@[simp] theorem Channel.dropMotion_bridge (c : Channel) (now : Nat) (x : StopCause) :
    (c.dropMotion now x).bridge = .off := by simp [Channel.dropMotion]
@[simp] theorem Channel.dropMotion_duty (c : Channel) (now : Nat) (x : StopCause) :
    (c.dropMotion now x).duty = 0 := by simp [Channel.dropMotion]
@[simp] theorem Channel.dropMotion_owner (c : Channel) (now : Nat) (x : StopCause) :
    (c.dropMotion now x).owner = none := by simp [Channel.dropMotion]
@[simp] theorem Channel.dropMotion_stopCause (c : Channel) (now : Nat) (x : StopCause) :
    (c.dropMotion now x).stopCause = x := by simp [Channel.dropMotion]
theorem Channel.dropMotion_holdTimer (c : Channel) (now : Nat) (x : StopCause) :
    (c.dropMotion now x).holdTimer = if c.owner = none then c.holdTimer else none := by
  simp [Channel.dropMotion, Channel.enterIdle_holdTimer, Channel.stopWith_holdTimer]
theorem Channel.dropMotion_statusDue {c : Channel} (h : c.mstate ≠ .idle) (now : Nat) (x : StopCause) :
    (c.dropMotion now x).statusDue = true := by
  unfold Channel.dropMotion; exact Channel.enterIdle_statusDue (by simpa using h) _

end Sys2Proof.Machine
end

