-- ==== Sys2Proof/Laws/Frame.lean ====
section
/-! SUPPORT. What the operations that act on one channel of the part can do: each says once that every other channel
and every field of the part it does not name stay as they are. -/

namespace Sys2Proof.Machine

-- One proof at a time: proofs run side by side would wait for one another (each waiting thread reserves a whole stack).
set_option Elab.async false

/-- Only channel `c`, the start queue and its spacing, the incident list, the transmit queue and the readout
engine may differ. -/
structure oneChannel (c : Chan) (s t : State) : Prop where
  others : othersKept c s t
  part : t = { s with
    channels := t.channels, startQueue := t.startQueue, spacingTimer := t.spacingTimer
    incidents := t.incidents, nextRef := t.nextRef, txQueue := t.txQueue, readout := t.readout }

theorem oneChannel.refl (c : Chan) (s : State) : oneChannel c s s := ⟨fun _ _ => rfl, rfl⟩

theorem oneChannel.trans {c : Chan} {s t u : State} (h : oneChannel c s t) (k : oneChannel c t u) :
    oneChannel c s u := by
  refine ⟨fun d hd => (k.others d hd).trans (h.others d hd), ?_⟩
  have hp := h.part
  have kp := k.part
  rw [hp] at kp
  exact kp

theorem oneChannel.clock {c : Chan} {s t : State} (h : oneChannel c s t) : t.clock = s.clock := by
  rw [h.part]

theorem oneChannel.pending {c : Chan} {s t : State} (h : oneChannel c s t) : t.pending = s.pending := by
  rw [h.part]

theorem oneChannel.holdLine {c : Chan} {s t : State} (h : oneChannel c s t) : t.holdLine = s.holdLine := by
  rw [h.part]

theorem oneChannel.globals {c : Chan} {s t : State} (h : oneChannel c s t) : t.globals = s.globals := by
  rw [h.part]

theorem oneChannel.partState {c : Chan} {s t : State} (h : oneChannel c s t) : t.partState = s.partState := by
  rw [h.part]

theorem setCh_oneChannel (c : Chan) (x : Channel) (s : State) : oneChannel c s (s.setCh c x) :=
  ⟨fun _ hd => State.ch_setCh_ne s x hd, rfl⟩

theorem modCh_oneChannel (c : Chan) (f : Channel → Channel) (s : State) : oneChannel c s (s.modCh c f) :=
  setCh_oneChannel c _ s

/-- A change that leaves every channel as it is. -/
theorem oneChannel.of_part {c : Chan} {s t : State} (h : t.channels = s.channels) (k : t = { s with
    channels := t.channels, startQueue := t.startQueue, spacingTimer := t.spacingTimer
    incidents := t.incidents, nextRef := t.nextRef, txQueue := t.txQueue, readout := t.readout }) :
    oneChannel c s t :=
  ⟨fun d _ => by simp [State.ch, h], k⟩

/-! ### Frames, outcomes and incidents -/

theorem handFrame_oneChannel (c : Chan) (f : Frame) (s : State) : oneChannel c s (handFrame f s) := by
  rw [handFrame_eq]; exact .of_part rfl rfl

/-- An outcome report changes the incident list only (R98). -/
theorem reportOutcome_eq (c : Chan) (o : ReversalOutcome) (s : State) :
    reportOutcome c o s = { s with incidents := (reportOutcome c o s).incidents } := by
  unfold reportOutcome; split <;> rfl

@[simp] theorem reportOutcome_ch (c d : Chan) (o : ReversalOutcome) (s : State) :
    (reportOutcome c o s).ch d = s.ch d := by
  rw [reportOutcome_eq]; rfl

/-- An outcome report keeps every record of the list in its place, with its identity and everything but its
outcome (R98, R154). -/
theorem reportOutcome_keeps (c : Chan) (o : ReversalOutcome) (s : State) :
    (reportOutcome c o s).incidents.map (fun r => { r with outcome := none }) =
      s.incidents.map (fun r => { r with outcome := none }) := by
  unfold reportOutcome
  split
  · rfl
  · simp only [List.map_map]
    refine List.map_congr_left fun r _ => ?_
    simp only [Function.comp_apply]
    split <;> rfl

theorem reportOutcome_oneChannel (c : Chan) (o : ReversalOutcome) (s : State) :
    oneChannel c s (reportOutcome c o s) := by
  rw [reportOutcome_eq]; exact .of_part rfl rfl

theorem appended_oneChannel (c : Chan) (l : List Incident) (n : Nat) (s : State) :
    oneChannel c s { s with incidents := l, nextRef := n } := .of_part rfl rfl

theorem startQueue_oneChannel (c : Chan) (q : List Chan) (s : State) :
    oneChannel c s { s with startQueue := q } := .of_part rfl rfl

theorem spacing_oneChannel (c : Chan) (x : Timer) (s : State) :
    oneChannel c s { s with spacingTimer := x } := .of_part rfl rfl

theorem declareIncident_oneChannel (c : Chan) (x : IncidentCause) (f : Option (Nat × Nat)) (s : State) :
    oneChannel c s (declareIncident c x f s) := by
  unfold declareIncident
  refine .trans ?_ (modCh_oneChannel c _ _)
  refine .trans ?_ (handFrame_oneChannel c _ _)
  exact (modCh_oneChannel c _ s).trans (appended_oneChannel c _ _ _)

theorem judgeStrip_oneChannel (c : Chan) (s : State) : oneChannel c s (judgeStrip c s) := by
  unfold judgeStrip; split
  · exact declareIncident_oneChannel c _ _ s
  · exact .refl c s

/-! ### Ends and stops -/

theorem leaveQueue_oneChannel (c : Chan) (x : StopCause) (s : State) : oneChannel c s (leaveQueue c x s) := by
  unfold leaveQueue
  exact (startQueue_oneChannel c _ s).trans (modCh_oneChannel c _ _)

theorem endReversal_oneChannel (c : Chan) (x : Option StopCause) (o : ReversalOutcome) (s : State) :
    oneChannel c s (endReversal c x o s) := by
  unfold endReversal
  exact (reportOutcome_oneChannel c o s).trans (modCh_oneChannel c _ _)

theorem stopRequest_oneChannel (c : Chan) (x : StopCause) (s : State) : oneChannel c s (stopRequest c x s) := by
  unfold stopRequest
  dsimp only
  repeat' split
  all_goals first
    | exact .refl c s
    | exact leaveQueue_oneChannel c _ s
    | exact endReversal_oneChannel c _ _ s
    | exact modCh_oneChannel c _ s
    | exact (reportOutcome_oneChannel c _ s).trans (modCh_oneChannel c _ _)

/-! ### The travel counter and the edge report -/

theorem countFaults_oneChannel (c : Chan) (a b d : Bool) (s : State) :
    oneChannel c s (countFaults c a b d s) := by
  unfold countFaults
  dsimp only
  split
  · exact ((modCh_oneChannel c _ _).trans (modCh_oneChannel c _ _)).trans (stopRequest_oneChannel c _ _)
  · exact modCh_oneChannel c _ _

theorem checkOvertravel_oneChannel (c : Chan) (s : State) : oneChannel c s (checkOvertravel c s) := by
  unfold checkOvertravel
  dsimp only
  split
  · exact (modCh_oneChannel c _ _).trans (stopRequest_oneChannel c _ _)
  · exact .refl c s

theorem driveEdge_oneChannel (c : Chan) (s : State) : oneChannel c s (driveEdge c s) := by
  unfold driveEdge
  dsimp only
  repeat' split
  all_goals first
    | exact .refl c s
    | exact modCh_oneChannel c _ s
    | exact endReversal_oneChannel c _ _ s

theorem detectEdge_oneChannel (c : Chan) (k : Bool) (p : Option Nat) (s : State) :
    oneChannel c s (detectEdge c k p s) := by
  unfold detectEdge
  dsimp only
  split
  · exact (setCh_oneChannel c _ s).trans (declareIncident_oneChannel c _ _ _)
  · exact setCh_oneChannel c _ s

theorem edgeReport_oneChannel (c : Chan) (k : Bool) (p : Option Nat) (s : State) :
    oneChannel c s (edgeReport c k p s) := by
  unfold edgeReport
  exact (((modCh_oneChannel c _ s).trans (judgeStrip_oneChannel c _)).trans
    (detectEdge_oneChannel c _ _ _)).trans (driveEdge_oneChannel c _)

theorem countEdge_oneChannel (c : Chan) (d : Dir) (s : State) : oneChannel c s (countEdge c d s) := by
  unfold countEdge
  exact (((modCh_oneChannel c _ s).trans (countFaults_oneChannel c _ _ _ _)).trans
    (checkOvertravel_oneChannel c _)).trans (edgeReport_oneChannel c _ _ _)

theorem hallPair_oneChannel (c : Chan) (a b a' b' : Bool) (s : State) :
    oneChannel c s (hallPair c a b a' b' s) := by
  unfold hallPair
  dsimp only
  split
  · exact countFaults_oneChannel c _ _ _ s
  · split
    · exact .refl c s
    · split
      · exact countEdge_oneChannel c _ s
      · exact .refl c s

theorem stall_oneChannel (c : Chan) (s : State) : oneChannel c s (stall c s) := by
  unfold stall
  dsimp only
  split
  · exact modCh_oneChannel c _ s
  · exact endReversal_oneChannel c _ _ s
  · exact modCh_oneChannel c _ s
  · exact declareIncident_oneChannel c _ _ s
  · exact modCh_oneChannel c _ s

/-! ### Starts, reversals, grants and brakes -/

/-- A channel that drives from now on leaves the spacing and is judged by the strip. -/
theorem spaced_oneChannel (c : Chan) (f : Channel → Channel) (x : State → Timer) (s : State) :
    oneChannel c s (judgeStrip c { s.modCh c f with spacingTimer := x (s.modCh c f) }) :=
  ((modCh_oneChannel c f s).trans (spacing_oneChannel c _ _)).trans (judgeStrip_oneChannel c _)

theorem admitHead_oneChannel (c : Chan) (s : State) : oneChannel c s (admitHead c s) := by
  unfold admitHead
  generalize hu : s.modCh c _ = u
  have h : oneChannel c s u := hu ▸ modCh_oneChannel c _ s
  dsimp only
  split
  · exact h.trans (modCh_oneChannel c _ u)
  · refine h.trans ?_
    exact spaced_oneChannel c _ (fun v =>
      if v.globals.spacing = 0 then none else startTimer v.clock v.globals.spacing) u
  · exact h

theorem enterReversing_oneChannel (c : Chan) (s : State) : oneChannel c s (enterReversing c s) := by
  unfold enterReversing
  generalize hu : s.modCh c _ = u
  have h : oneChannel c s u := hu ▸ modCh_oneChannel c _ s
  dsimp only
  refine h.trans ?_
  split
  · exact .refl c u
  · repeat' split
    all_goals first
      | exact endReversal_oneChannel c _ _ u
      | exact modCh_oneChannel c _ u

theorem formReversal_oneChannel (c : Chan) (s : State) : oneChannel c s (formReversal c s) := by
  unfold formReversal
  dsimp only
  split
  · exact (reportOutcome_oneChannel c _ s).trans (modCh_oneChannel c _ _)
  · split
    · generalize hu : s.modCh c _ = u
      have h : oneChannel c s u := hu ▸ modCh_oneChannel c _ s
      refine h.trans ?_
      split
      · exact modCh_oneChannel c _ u
      · exact enterReversing_oneChannel c u
    · exact (reportOutcome_oneChannel c _ s).trans (modCh_oneChannel c _ _)

theorem grantTo_oneChannel (c : Chan) (g : Grant) (s : State) : oneChannel c s (grantTo c g s) := by
  unfold grantTo
  dsimp only
  split
  · split
    · exact ((modCh_oneChannel c _ s).trans (startQueue_oneChannel c _ _)).trans (judgeStrip_oneChannel c _)
    · exact (modCh_oneChannel c _ s).trans (startQueue_oneChannel c _ _)
  · split
    · exact (modCh_oneChannel c _ s).trans (judgeStrip_oneChannel c _)
    · exact modCh_oneChannel c _ s

theorem followMotion_oneChannel (c : Chan) (i : Slot) (m : Mode) (g : Goal) (d : Dir) (r : Motion) (e : Bool)
    (s : State) : oneChannel c s (followMotion c i m g d r e s) := by
  unfold followMotion
  generalize hu : s.modCh c _ = u
  have h : oneChannel c s u := hu ▸ modCh_oneChannel c _ s
  refine h.trans ?_
  dsimp only
  split
  · split <;> exact modCh_oneChannel c _ u
  · exact (modCh_oneChannel c _ u).trans (startQueue_oneChannel c _ _)

theorem endBrake_oneChannel (c : Chan) (s : State) : oneChannel c s (endBrake c s) := by
  unfold endBrake
  split
  · exact .refl c s
  · split
    · exact formReversal_oneChannel c s
    · exact followMotion_oneChannel c _ _ _ _ _ _ s
    · exact modCh_oneChannel c _ s

end Sys2Proof.Machine
end

