-- ==== Sys2Proof/WellFormed.lean ====
section
/-! DEFINITION. Which commands a bus and its lines can bring. The operands are typed so that almost every
term is one the outside world can give; the one check left is the length of a frame (R164). -/

namespace Sys2Proof

/-- A classic CAN frame carries 0 to 8 data bytes (R164). -/
def BusFrame.wellFormed (f : BusFrame) : Bool := f.data.length ≤ 8

/-- The commands that can reach the part. A command that is not well formed stands for nothing the bus can
bring; the part ignores it (log entry 3). -/
def Instr.wellFormed : Instr → Bool
  | .frameReceived f => f.wellFormed
  | _ => true

end Sys2Proof
end

