-- ==== Sys2Proof/Tests/Slice0.lean ====
section
/-! SUPPORT. Tests of the model on the manual's worked examples and tables, and, for every obligation with
hypotheses, a concrete state and operands that meet them. -/

namespace Sys2Proof.Machine

-- One proof at a time: proofs run side by side would wait for one another (each waiting thread reserves a whole stack).
set_option Elab.async false

/-! ### Small states -/

/-- The part in RUN, all channels idle. -/
def bench : State := { State.reset with partState := .run, configTimer := none }

/-- A state with this channel as CH0. -/
def State.withCh0 (s : State) (c : Channel) : State := { s with channels := { s.channels with c0 := c } }

/-- The bench with this channel as CH0. -/
def bench0 (c : Channel) : State := bench.withCh0 c

/-- A request of slot 0 waits. -/
def State.asking (s : State) (d : List Nat) : State := { s with normal := [⟨.s0, d.map byteOf⟩] }

/-- An idle channel. -/
def rest0 : Channel := .atReset false false false

/-- The record of a HOLD close of slot 1. -/
def closing1 : Motion := newMotion .s1 .hold (some (.toEnd .toClose)) .dec 0 true

/-- CH0 RUNNING toward 0 for slot 1, REFERENCED at 1500. -/
def running1 : Channel := { rest0 with
  mstate := .running, motion := some { closing1 with started := true }, bridge := .driveDec, duty := 1000
  runDuty := 1000, phase := some ⟨.dec, 0, true⟩, stallTimer := some 300, runSince := some 0
  owner := some ⟨.s1, false, .hold, some (.toEnd .toClose), .dec⟩, holdTimer := some 300
  datum := .referenced, position := 1500 }

/-- The same, still in STARTING. -/
def starting1 : Channel := { running1 with mstate := .starting, ramp := some ⟨0, 0⟩, duty := 400 }

/-- The same motion QUEUED. -/
def queued1 : Channel := { rest0 with
  mstate := .queued, motion := some closing1
  owner := some ⟨.s1, false, .hold, some (.toEnd .toClose), .dec⟩, holdTimer := some 300
  datum := .referenced, position := 1500 }

/-- The same motion PAUSED from RUNNING. -/
def paused1 : Channel := { queued1 with
  mstate := .paused, motion := some { closing1 with pausedFrom := some .running, started := true } }

/-- A reversal after a PINCH. -/
def reversal1 : Motion := { closing1 with
  mode := .reversal, owner := none, goal := some (.target 3000), dir := .inc, incidentFree := false
  incidentRef := some 0, started := true }

/-- CH0 REVERSING toward 3000. -/
def reversing1 : Channel := { rest0 with
  mstate := .reversing, motion := some reversal1, bridge := .driveInc, duty := 1000, runDuty := 1000
  phase := some ⟨.inc, 0, false⟩, stallTimer := some 300, runSince := some 0
  datum := .referenced, position := 1500 }

/-- CH0 BRAKING with this follow-on. -/
def braking1 (b : Brake) : Channel := { rest0 with
  mstate := .braking, bridge := .brake, brakeTimer := some 40, datum := .referenced, position := 1500
  motion := some { closing1 with owner := none, braking := some b, started := true } }

/-- The hold line ASSERTED, CH0 PAUSED and CH1 QUEUED. -/
def held1 : State :=
  { bench with
    channels := { bench.channels with c0 := paused1, c1 := queued1 }, startQueue := [.ch1]
    holdLine := ⟨true, none⟩, holdLimitTimer := some 2000 }

/-- CH0 RUNNING, CH1 QUEUED, CH2 REVERSING. -/
def busy1 : State :=
  { bench with
    channels := { bench.channels with c0 := running1, c1 := queued1, c2 := reversing1 }, startQueue := [.ch1] }

/-! ### The check of WellFormed -/

/-- A frame of nine data bytes is no classic frame (R164). -/
theorem test_wellFormed_refuses_nine_bytes :
    (Instr.frameReceived ⟨.standard 0x5B0#11, false, false, List.replicate 9 0#8⟩).wellFormed = false := by
  decide

theorem test_wellFormed_takes_eight_bytes :
    (Instr.frameReceived ⟨.standard 0x5B0#11, false, false, List.replicate 8 0#8⟩).wellFormed = true := by
  decide

/-- The table gives no bits, so no word spells a command. -/
theorem test_no_word_spells_a_command (n w : Nat) : decodeTableWord n w = none := rfl

/-! ### Worked examples of the manual -/

/-- Section 10, one STATUS frame: CH1 RUNNING, EXPRESS, at 1520. -/
def statusExample : Channel := { rest0 with
  mstate := .running, motion := some { closing1 with mode := .express }, datum := .referenced
  stopCause := .target, owner := some ⟨.s1, false, .express, none, .dec⟩, position := 1520
  lastF := 100, lastT := 95 }

theorem test_status_bytes :
    ((bytesOf 8 (statusBits statusExample 12000 .normal)).map (·.toNat)).take 4 = [102, 18, 11, 224] ∧
      ((bytesOf 8 (statusBits statusExample 12000 .normal)).map (·.toNat)).getLast? = some 24 := by decide

/-- Section 3.2, the lookups on the window. -/
theorem test_window_zones :
    [1500, 1520, 6000, 6020, -2180].map (zoneOf ChanTuning.default) = [7, 8, 31, 31, 11] := by decide

/-- Section 3.2, the lookups on the roof panel. -/
theorem test_roof_zones :
    [0, 3999, -1, -600, -800].map
      (zoneOf { ChanTuning.default with axis := .twoSided, lo := 4000, lt := 800 }) =
        [0, 15, 16, 28, 31] := by decide

/-- Section 3.5, one clean close. -/
theorem test_clean_close_adapts :
    List.zipWith (adaptZone 120) [0, 1010, 1000, 980, 980, 990, 1000]
      [⟨193264, 188⟩, ⟨189881, 188⟩, ⟨189316, 188⟩, ⟨188752, 188⟩, ⟨182360, 188⟩, ⟨145200, 121⟩, ⟨0, 0⟩] =
        [1028, 1010, 1000, 983, 979, 990, 1000] := by decide

/-- Section 3.6, the check byte of the shade. -/
theorem test_shade_check_byte :
    checkByte 16 3000 0 [1100, 1050, 1020, 1000, 990, 990, 1000, 1010, 1030, 1060, 1100, 0, 0, 0, 0, 0]
      0 true = 80 := by decide

/-- R70: −600 is summed through the bytes 253 and 168. -/
theorem test_negative_position_bytes : (bytesOf 2 (field 16 (-600))).map (·.toNat) = [253, 168] := by decide

/-- Section 2.3, two edges to a PINCH: the channel before the first of them. -/
def pinchExample : Channel := { running1 with
  position := 1520, settled := 4, ring := [998, 1002, 1010, 1041]
  zones := (List.replicate 32 0).set 8 980 }

theorem test_first_trip :
    let x := pinchExample.detect 12000 15 true (some 1200)
    x.1.ring = [1002, 1010, 1041, 1067] ∧ x.1.lastF = 100 ∧ x.1.lastT = 95 ∧ x.1.trips = 1 ∧
      x.2 = false := by decide

theorem test_second_trip_is_a_pinch :
    let x := ({ (pinchExample.detect 12000 15 true (some 1200)).1 with position := 1519 }).detect
      12000 15 true (some 1260)
    x.1.lastF = 158 ∧ x.1.trips = 0 ∧ x.2 = true := by decide

/-- Chapter 6, the band through a crank: the fourth low sample, and the two that bring NORMAL back. -/
theorem test_crank_enters_low :
    let s := takeSample 304 { bench with samples := [12400, 8500, 7800, 7600], volts := 9075 }
    s.volts = 7875 ∧ s.band = .low := by decide

theorem test_crank_stays_low :
    let s := takeSample 384 { bench with samples := [7600, 7600, 9400, 9600], volts := 8550, band := .low }
    s.volts = 9050 ∧ s.band = .low := by decide

theorem test_crank_returns :
    let s := takeSample 384 { bench with samples := [7600, 9400, 9600, 9600], volts := 9050, band := .low }
    s.volts = 9550 ∧ s.band = .normal := by decide

/-- Section 9.5: the examples of a value brought into its range. -/
theorem test_tune_ranges :
    [(11, 40), (11, 5), (16, 3), (16, 0), (8, 20000), (5, 7)].map
      (fun x => (chanRange x.1).map (ParamRange.bringIn x.2)) =
        [some 32, some 16, some 2, some 1, some 16000, some 2] := by decide

/-- R3: 00, 10, 11, 01, 00 is forward. -/
theorem test_forward_order :
    rotationOf false false true false = .forward ∧ rotationOf true false true true = .forward ∧
      rotationOf true true false true = .forward ∧ rotationOf false true false false = .forward ∧
      rotationOf false false false true = .backward := by decide

/-! ### One step -/

/-- The field of a channel after one step of a command. -/
def after {α : Type} (c : Instr) (s : State) (f : State → α) : Option α :=
  match exec c s with
  | .next t => some (f t)
  | _ => none

/-- R114: a SET that removes the owner stops its motion. -/
theorem test_lockout_stops_the_owner :
    after .lockout ((bench0 running1).asking [5, 1, 2, 0])
      (fun t => ((t.ch .ch0).mstate, (t.ch .ch0).stopCause, (t.ch .ch0).owner)) =
        some (.braking, .lockout, none) := by decide +kernel

/-- R126: a STOP sets STOP and latches the HOLD close of slot 1 (R124). -/
theorem test_stop_sets_a_latch :
    after .stop { bench0 running1 with urgent := [⟨.s0, 1#8⟩] }
      (fun t => ((t.ch .ch0).stopCause, (t.ch .ch0).latches.get .s1)) =
        some (.stop, some ⟨.toClose, 300⟩) := by decide +kernel

/-- R105: a released master motion goes to the front of the start queue. -/
theorem test_release_queues_at_the_front :
    after (.holdReleased 500) held1 (fun t => (t.startQueue, (t.ch .ch0).mstate)) =
      some ([.ch0, .ch1], .queued) := by decide +kernel

/-- R187 and R185: the session of section 9.5, TUNE 100 of slot 2 and START. -/
theorem test_tune_a_slot :
    after .tune (State.reset.asking [16, 99, 2, 0, 9])
      (fun t => ((t.slots.get .s2).rank, t.txQueue.map fun e => e.frame.data.map (·.toNat))) =
        some (7, [[16, 1, 99, 2, 0, 7]]) := by decide +kernel

/-- R168: the ninth normal request is answered FULL. -/
theorem test_full_fifo :
    after (.frameReceived ⟨.standard 0x5B0#11, false, false, [6#8, 0#8]⟩)
      { bench with normal := List.replicate 8 ⟨.s0, [6#8, 0#8]⟩ }
      (fun t => (t.normal.length, t.txQueue.map fun e => e.frame.data.map (·.toNat))) =
        some (8, [[6, 12, 0, 0, 0, 0]]) := by decide +kernel

/-- R82 and R190: GL1 is held off in the µs of a change that switches its side and is on in the next, also where a
second change of the same µs leaves that side alone. -/
theorem test_dead_time_counts_every_change :
    let c := (rest0.setBridge 7 .driveDec 400).setBridge 7 .brake 0
    (c.gatesAt 7).1 = ⟨.off, .off⟩ ∧ (c.gatesAt 8).1 = ⟨.off, .on⟩ := by decide

/-- R112: a grant to the slot of a pending ownership is a change; a refresh of a held one is none. -/
theorem test_owner_change_queues_status :
    let o : Owner := ⟨.s1, true, .hold, some (.toEnd .toClose), .dec⟩
    (({ rest0 with owner := some o }).setOwner o).statusDue = true ∧
      (({ rest0 with owner := some { o with pending := false } }).setOwner
        { o with pending := false }).statusDue = false := by decide

/-! ### Witnesses: states that meet the hypotheses of the obligations

The channels of the small states are coherent. -/

theorem rest0_coherent : rest0.coherent := by
  unfold Channel.coherent Channel.ownerGoal
  refine ⟨by decide, And.intro rfl rfl, rfl, ?_, ?_, ?_, ?_, ?_, ?_, ?_, ?_⟩ <;> decide

theorem running1_coherent : running1.coherent := by
  unfold Channel.coherent Channel.ownerGoal
  refine ⟨by decide, rfl, And.intro rfl rfl, ?_, ?_, ?_, ?_, ?_, ?_, ?_, ?_⟩ <;> decide

theorem starting1_coherent : starting1.coherent := by
  unfold Channel.coherent Channel.ownerGoal
  refine ⟨by decide, rfl, And.intro rfl rfl, ?_, ?_, ?_, ?_, ?_, ?_, ?_, ?_⟩ <;> decide

theorem queued1_coherent : queued1.coherent := by
  unfold Channel.coherent Channel.ownerGoal
  refine ⟨by decide, And.intro rfl rfl, And.intro rfl rfl, ?_, ?_, ?_, ?_, ?_, ?_, ?_, ?_⟩ <;> decide

theorem paused1_coherent : paused1.coherent := by
  unfold Channel.coherent Channel.ownerGoal
  have h : paused1.ownerFollows := by
    show if paused1.pausedMaster = true
      then paused1.owner.isSome = true ∧ paused1.owner = paused1.motion.bind Motion.ownership
      else paused1.owner = none
    decide
  refine ⟨by decide, And.intro rfl rfl, h, ?_, ?_, ?_, ?_, ?_, ?_, ?_, ?_⟩ <;> decide

theorem reversing1_coherent : reversing1.coherent := by
  unfold Channel.coherent Channel.ownerGoal
  refine ⟨by decide, rfl, rfl, ?_, ?_, ?_, ?_, ?_, ?_, ?_, ?_⟩ <;> decide

theorem busy1_coherent : busy1.coherent := by
  refine ⟨?_, by decide, by decide, by decide, by decide⟩
  intro c _
  cases c
  · exact running1_coherent
  · exact queued1_coherent
  · exact reversing1_coherent
  all_goals exact rest0_coherent

theorem held1_coherent : held1.coherent := by
  refine ⟨?_, by decide, by decide, by decide, by decide⟩
  intro c _
  cases c
  · exact paused1_coherent
  · exact queued1_coherent
  all_goals exact rest0_coherent

/-! One theorem for each obligation with hypotheses, a conjunct for each of its clauses. -/

/-- A step with a command to take, from a state that meets every invariant. -/
def next1 : State := { busy1 with pending := [.holdAsserted 500] }

theorem test_witness_StepTakesFront : next1.pending = .holdAsserted 500 :: [] ∧ bench.pending = [] := by decide

theorem test_witness_invariants :
    next1.noneDue ∧ next1.tuningInRange ∧ next1.inBounds ∧ next1.coherent ∧ next1.recordsInBounds ∧
      next1.queueOrdered ∧ next1.incidentsOwn ∧ ∃ t, step next1 = .next t := by
  refine ⟨?_, ?_, ?_, busy1_coherent, ?_, ?_, ?_, _, rfl⟩
  · unfold State.noneDue; decide
  · unfold State.tuningInRange; decide +kernel
  · unfold State.inBounds Channel.inBounds Staging.inBounds; decide +kernel
  · unfold State.recordsInBounds Channel.periodsInBounds Incident.inBounds Readout.inBounds; decide +kernel
  · unfold State.queueOrdered; decide
  · unfold State.incidentsOwn; decide

theorem test_witness_TransitionsAreCounted :
    bench.noneDue ∧ (bench.ch .ch0).mstate = .idle ∧ (bench.ch .ch0).bridge = .off ∧
      (bench.ch .ch0).phase = none ∧ (bench.ch .ch0).datum = .unreferenced ∧
      (bench.ch .ch0).hallA = ⟨false, none⟩ ∧ (bench.ch .ch0).hallB = ⟨false, none⟩ ∧
      (false != true) ≠ (false != false) ∧ (bench.ch .ch0).tune.filter ≤ 4 := by
  unfold State.noneDue; decide

/-- CH0 IDLE with its STEP counter at its bound, and RUNNING with the counter one below Th. -/
theorem test_witness_StepFaultsCount :
    let s := bench0 { rest0 with stepFaults := 255 }
    let r := bench0 { running1 with stepFaults := 7 }
    (s.noneDue ∧ (s.ch .ch0).hallA = ⟨false, none⟩ ∧ (s.ch .ch0).hallB = ⟨false, none⟩ ∧
      (s.ch .ch0).tune.filter ≤ 4 ∧ (if (s.ch .ch0).stepFaults < 255 then 256 else 255) ≠ s.globals.th) ∧
    (r.noneDue ∧ (r.ch .ch0).hallA = ⟨false, none⟩ ∧ (r.ch .ch0).hallB = ⟨false, none⟩ ∧
      (r.ch .ch0).tune.filter ≤ 4 ∧ (r.ch .ch0).stepFaults < 255 ∧
      (r.ch .ch0).stepFaults + 1 = r.globals.th ∧ (r.ch .ch0).mstate = .running) ∧
    (r.ch .ch0).coherent := by
  refine ⟨?_, ?_, running1_coherent⟩ <;> · unfold State.noneDue; decide

theorem test_witness_RunningEdgeIsJudged :
    let s := bench0 { running1 with datum := .unreferenced, settled := 3 }
    ((s.ch .ch0).mstate = .running ∧ (s.ch .ch0).phase = some ⟨.dec, 0, true⟩ ∧
      (s.ch .ch0).bridge = Dir.dec.bridge ∧ (s.ch .ch0).datum = .unreferenced ∧
      (s.ch .ch0).tune.stripEnable = false ∧ (s.ch .ch0).settled < (s.ch .ch0).tune.ms ∧
      (s.ch .ch0).settled < 63 ∧ (s.ch .ch0).reverseFaults < 255 ∧ (s.ch .ch0).speedFaults < 255 ∧
      (s.ch .ch0).reverseFaults + 1 ≠ s.globals.th ∧ (s.ch .ch0).speedFaults + 1 ≠ s.globals.th) ∧
    ∀ x, ({ s.ch .ch0 with position := x }).motionEnd = none := by
  refine ⟨by decide, fun x => ?_⟩
  show endCause ChanTuning.default .unreferenced (.toEnd .toClose) .dec x = none
  simp [endCause, Goal.held, ChanTuning.default]

/-- An edge past Lo + To under a motion and under a reversal, one past −To in IDLE, and one that stays inside. -/
theorem test_witness_overtravel :
    let c : Channel := { running1 with position := 6020 }
    let d : Channel := { reversing1 with position := 6020 }
    let e : Channel := { rest0 with datum := .referenced, position := -20 }
    let f : Channel := { e with position := -19 }
    (c.coherent ∧ d.coherent ∧ e.coherent ∧ f.coherent) ∧
    (c.datum = .referenced ∧ (c.tune.lo : Int) + c.tune.overtravel < stepPosition c.position .inc ∧
      c.reverseFaults + 1 ≠ bench.globals.th ∧ c.speedFaults + 1 ≠ bench.globals.th ∧ c.mstate = .running) ∧
    (d.datum = .referenced ∧ (d.tune.lo : Int) + d.tune.overtravel < stepPosition d.position .inc ∧
      d.mstate = .reversing) ∧
    (stepPosition e.position .dec < -(0 + (e.tune.overtravel : Int)) ∧ e.mstate = .idle) ∧
    ¬(stepPosition f.position .dec < -(0 + (f.tune.overtravel : Int))) := by
  refine ⟨⟨running1_coherent, reversing1_coherent, rest0_coherent, rest0_coherent⟩, ?_⟩
  decide

theorem test_witness_PeriodIsCorrected :
    (1 ≤ 1 ∧ 65535 ≤ 65535 ∧ (8999 < 9000 → 9000 = 9000)) ∧ (9000 ≤ 9000 ∧ 16000 ≤ 16000) ∧ 16000 < 16001 := by
  decide

/-- A ring that fills, one that the edge fills and a full one, at the highest roughness level; and a fed edge that declares
a PINCH, with an owner and a record. -/
theorem test_witness_FedEdgeIsComputed :
    (3 ≤ 3 ∧ running1.ring.length + 1 < running1.tune.n ∧ 1 ≤ pinchExample.tune.n ∧
      pinchExample.ring.length = pinchExample.tune.n ∧
      pinchExample.ring.tail.length + 1 = pinchExample.tune.n) ∧
    (let s := bench0 { pinchExample with trips := 1 }
    let u := s.ch .ch0
    u.mstate = .running ∧ u.tune.ms ≤ u.settled ∧ u.motion.isSome = true ∧ u.owner.isSome = true ∧
      (u.fed s.volts (s.globals.arough s.roughness) true 1260).2 = true) ∧
    (running1.mstate = .running ∧ running1.settled < running1.tune.ms ∧ rest0.mstate ≠ .running) := by decide

theorem test_witness_IncidentBrakesTowardReversal :
    let s := bench0 running1
    (s.ch .ch0).mstate = .running ∧ (s.ch .ch0).drives = true ∧ (s.ch .ch0).motion = running1.motion ∧
      running1.motion.isSome = true ∧ (s.ch .ch0).owner = running1.owner ∧ running1.owner.isSome = true := by
  decide

/-- A record without an outcome, its fields at their bounds. -/
def record1 : Incident := ⟨0, 0, .ch0, .pinch, -16384, 63, some (1023, 1023), 25575, 3, .s1, .hold, 3, none⟩

theorem test_witness_record_bytes :
    record1.strikesAfter ≤ 3 ∧ record1.zone ≤ 63 ∧ record1.roughness ≤ 3 ∧ record1.supply ≤ 25575 ∧
      record1.mode ≠ .reversal ∧ -16384 ≤ record1.position ∧ record1.position ≤ 16383 ∧
      record1.force = some (1023, 1023) ∧ (incidentOf bench .ch0 .edge none).force = none ∧
      (∀ x ∈ record1.outcome, -16384 ≤ x.2 ∧ x.2 ≤ 16383) ∧ bench.txQueue.length < 12 := by decide

/-- CH0 RUNNING toward 0 with a strip. -/
def edged1 : Channel := { running1 with tune := { ChanTuning.default with stripEnable := true }, position := 61 }

theorem test_witness_StripIsJudged :
    (bench.noneDue ∧ (bench.ch .ch0).strip = ⟨!true, none⟩ ∧ (bench.ch .ch0).tune.stripEnable = false) ∧
    ((bench0 edged1).noneDue ∧ edged1.strip = ⟨false, none⟩ ∧ edged1.tune.stripEnable = true ∧
      edged1.mstate = .running ∧ edged1.motion.isSome = true ∧ edged1.owner.isSome = true ∧
      edged1.drivesTowardZero = true ∧
      ¬(edged1.datum = .referenced ∧ edged1.position.natAbs ≤ edged1.tune.s)) := by
  unfold State.noneDue; decide

/-- An enabled strip inside the seal zone, at its edge, and under a drive away from 0. -/
theorem test_witness_strip_that_does_not_trip :
    let c : Channel := { edged1 with position := 60 }
    let d : Channel := { edged1 with bridge := .driveInc }
    (bench0 c).noneDue ∧ c.strip = ⟨false, none⟩ ∧ c.datum = .referenced ∧ c.position.natAbs ≤ c.tune.s ∧
      (bench0 d).noneDue ∧ d.strip = ⟨false, none⟩ ∧ d.drivesTowardZero = false := by
  unfold State.noneDue; decide

/-- A stall at the edge of the seal zone, and a stall of a seek. -/
theorem test_witness_StallFindsTheEnd :
    let c : Channel := { running1 with position := 60 }
    let d : Channel := { running1 with datum := .seeking }
    ((bench0 c).noneDue ∧ c.stallTimer = some 300 ∧ c.motion.isSome = true ∧ c.drives = true ∧
      c.mstate = .running ∧ c.drivesTowardZero = true ∧ c.tune.closedEnd = .stall ∧
      c.position.natAbs ≤ c.tune.s) ∧
    ((bench0 d).noneDue ∧ d.stallTimer = some 300 ∧ d.motion.isSome = true ∧ d.drives = true ∧
      d.mstate = .running ∧ d.datum = .seeking) := by
  unfold State.noneDue; decide

/-- An opening that stalls, closes that stall at both ends of the pinch band, and a reversal that stalls. -/
theorem test_witness_StallIsClassified :
    let c : Channel := { running1 with bridge := .driveInc }
    let d : Channel := { running1 with position := 61 }
    let e : Channel := { running1 with position := 2000 }
    ((bench0 c).noneDue ∧ c.stallTimer = some 300 ∧ c.drives = true ∧ c.mstate = .running ∧
      c.datum ≠ .seeking ∧ c.drivesTowardZero = false) ∧
    ((bench0 d).noneDue ∧ d.stallTimer = some 300 ∧ d.mstate = .running ∧ d.datum = .referenced ∧
      d.drivesTowardZero = true ∧ d.tune.s < d.position.natAbs) ∧
    ((bench0 e).noneDue ∧ e.drivesTowardZero = true ∧ e.position.natAbs ≤ e.tune.b) ∧
    ((bench0 reversing1).noneDue ∧ reversing1.stallTimer = some 300 ∧ reversing1.mstate = .reversing ∧
      reversing1.datum ≠ .seeking) ∧ reversing1.coherent := by
  refine ⟨?_, ?_, ?_, ?_, reversing1_coherent⟩ <;> · unfold State.noneDue; decide

/-- A close that waits alone in the start queue. -/
def waiting1 : State := { bench0 queued1 with startQueue := [.ch0] }

theorem test_witness_AdmissionStartsTheHead :
    (waiting1.noneDue ∧ waiting1.startQueue = .ch0 :: [] ∧ waiting1.driving < waiting1.globals.m ∧
      waiting1.spacingTimer = none ∧ waiting1.holdLine.level = false ∧ queued1.mstate = .queued ∧
      queued1.bridge = .off ∧ queued1.motion = some closing1 ∧ closing1.goal = some (.toEnd .toClose) ∧
      closing1.mode ≠ .reference ∧ queued1.tune.stripEnable = false ∧
      goalDir queued1.tune.axis (.toEnd .toClose) queued1.position = some .dec ∧
      endCause queued1.tune queued1.datum (.toEnd .toClose) .dec queued1.position = none) ∧
    (({ busy1 with globals := { busy1.globals with m := 2 } } : State).globals.m ≤ busy1.driving) ∧
    ({ busy1 with spacingTimer := some 150 } : State).spacingTimer.isSome = true ∧
    held1.holdLine.level = true := by
  unfold State.noneDue; decide

/-- A REFERENCE that waits alone. -/
def seeking1 : Channel := { queued1 with
  motion := some (newMotion .s1 .reference none .dec 0 true), datum := .unreferenced, holdTimer := none
  owner := some ⟨.s1, false, .reference, none, .dec⟩ }

theorem test_witness_AdmissionStartsTheSeek :
    let s : State := { bench0 seeking1 with startQueue := [.ch0] }
    s.noneDue ∧ s.startQueue = .ch0 :: [] ∧ s.driving < s.globals.m ∧ s.spacingTimer = none ∧
      s.holdLine.level = false ∧ seeking1.mstate = .queued ∧ seeking1.bridge = .off ∧
      seeking1.motion.map (·.mode) = some .reference ∧ seeking1.motion.bind (·.goal) = none ∧
      seeking1.tune.stripEnable = false := by
  unfold State.noneDue; decide

/-- The close and the REFERENCE of above with a strip that is asserted: it trips at 61, not at 60, and for the seek at
both. -/
theorem test_witness_admission_with_a_strip :
    let pressed (c : Channel) (p : Int) : Channel := { c with
      tune := { ChanTuning.default with stripEnable := true }, strip := ⟨true, none⟩, position := p }
    let c := pressed queued1 61
    let d := pressed queued1 60
    let e := pressed seeking1 60
    (c.stripPressed .dec ∧ ¬(c.datum = .referenced ∧ c.position.natAbs ≤ c.tune.s) ∧
      goalDir c.tune.axis (.toEnd .toClose) c.position = some .dec ∧ c.owner.isSome = true ∧
      endCause c.tune c.datum (.toEnd .toClose) .dec c.position = none) ∧
    (d.datum = .referenced ∧ d.position.natAbs ≤ d.tune.s) ∧
    (e.stripPressed .dec ∧ e.motion.map (·.mode) = some .reference ∧ e.owner.isSome = true) ∧
    ¬(seeking1.stripPressed .dec) := by
  unfold Channel.stripPressed; decide

/-- R44: the admission of such a close starts it and brakes it with EDGE. -/
theorem test_admission_trips :
    after .admission { bench0 { queued1 with
        tune := { ChanTuning.default with stripEnable := true }, strip := ⟨true, none⟩ } with startQueue := [.ch0] }
      (fun t => ((t.ch .ch0).mstate, (t.ch .ch0).stopCause, t.incidents.map (·.cause), t.spacingTimer)) =
        some (.braking, .edge, [.edge], some 150) := by decide +kernel

/-- An open that stands at the limit. -/
def atLimit1 : Channel := { queued1 with
  motion := some { closing1 with goal := some (.toEnd .toOpen), dir := .inc }, position := 6000 }

theorem test_witness_AdmissionMayEndAtOnce :
    let s : State := { bench0 atLimit1 with startQueue := [.ch0] }
    s.noneDue ∧ s.startQueue = .ch0 :: [] ∧ s.driving < s.globals.m ∧ s.spacingTimer = none ∧
      s.holdLine.level = false ∧ atLimit1.mstate = .queued ∧ atLimit1.bridge = .off ∧
      endCause atLimit1.tune atLimit1.datum (.toEnd .toOpen)
        ((goalDir atLimit1.tune.axis (.toEnd .toOpen) atLimit1.position).getD .inc) atLimit1.position =
          some .limit := by
  unfold State.noneDue; decide

theorem test_witness_RampRaisesTheDuty :
    (bench0 starting1).noneDue ∧ ((bench0 starting1).ch .ch0).mstate = .starting ∧
      ((bench0 starting1).ch .ch0).ramp = some ⟨0, 0⟩ := by
  unfold State.noneDue; decide

theorem test_witness_BrakeEndsInIdle :
    let c := braking1 ⟨.none, true⟩
    (bench0 c).noneDue ∧ c.brakeTimer = some 40 ∧ c.mstate = .braking ∧ c.bridge = .brake ∧
      c.motion.bind (·.braking) = some ⟨.none, true⟩ ∧ c.owner = none := by
  unfold State.noneDue; decide

/-- A reversal toward the open side, and one toward the tilt side, clamped at −Lt. -/
theorem test_witness_BrakeTurnsToReversing :
    let c := braking1 ⟨.reversal, false⟩
    let d : Channel := { c with
      tune := { ChanTuning.default with axis := .twoSided, lt := 800 }, position := -100 }
    ((bench0 c).noneDue ∧ c.brakeTimer = some 40 ∧ c.bridge = .brake ∧
      c.motion.bind (·.braking) = some ⟨.reversal, false⟩ ∧ 0 < c.tune.dr ∧
      c.position < min (c.position + c.tune.dr) c.tune.lo) ∧
    ((bench0 d).noneDue ∧ d.position < 0 ∧ 0 < d.tune.lt ∧
      max (d.position - d.tune.dr) (-(d.tune.lt : Int)) < d.position) := by
  unfold State.noneDue; decide

/-- A reversal with Dr 0, and one that stands at Lo already. -/
theorem test_witness_reversal_without_a_way :
    let c : Channel := { braking1 ⟨.reversal, false⟩ with
      motion := some { reversal1 with goal := none, braking := some ⟨.reversal, false⟩ } }
    let d : Channel := { c with tune := { ChanTuning.default with dr := 0 } }
    let e : Channel := { c with position := 6000 }
    ((bench0 d).noneDue ∧ d.brakeTimer = some 40 ∧ d.mstate = .braking ∧ d.bridge = .brake ∧
      d.motion.map (·.incidentFree) = some false ∧ d.tune.dr = 0) ∧
    ((bench0 e).noneDue ∧ e.motion.bind (·.braking) = some ⟨.reversal, false⟩ ∧
      ¬(e.position < min (e.position + e.tune.dr) (e.tune.lo : Int))) := by
  unfold State.noneDue; decide

/-- A brake of a pre-emption and one that ended its motion, with the line ASSERTED and its limit expired. -/
theorem test_witness_BrakeTurnsToTheFollowOn :
    let c : Channel := { braking1 ⟨.motion .s2 .express (.toEnd .toOpen) .inc, false⟩ with
      owner := some ⟨.s2, true, .express, some (.toEnd .toOpen), .inc⟩ }
    (bench0 c).noneDue ∧ c.brakeTimer = some 40 ∧ c.mstate = .braking ∧ c.bridge = .brake ∧
      c.motion.bind (·.braking) = some ⟨.motion .s2 .express (.toEnd .toOpen) .inc, false⟩ ∧
      c.owner.isSome = true ∧ Mode.express ≠ Mode.reference ∧ (bench0 c).holdLine.level = false ∧
      ({ bench0 c with holdLine := ⟨true, none⟩ } : State).limitExpired = false ∧
      (let d : Channel := { braking1 ⟨.motion .s2 .hold (.toEnd .toClose) .dec, true⟩ with
        owner := some ⟨.s2, true, .hold, some (.toEnd .toClose), .dec⟩, holdTimer := some 300, stopCause := .closed }
      let s : State := { bench0 d with holdLine := ⟨true, none⟩, limitExpired := true }
      s.noneDue ∧ d.motion.bind (·.braking) = some ⟨.motion .s2 .hold (.toEnd .toClose) .dec, true⟩ ∧
        d.owner.isSome = true ∧ s.holdLine.level = true ∧ s.limitExpired = true) := by
  unfold State.noneDue; decide

/-- R84: at the expiry of a pre-emption's brake a target at the position gives no direction; the record keeps its own
and the owner the follow-on's. -/
theorem test_still_follow_on_keeps_both_directions :
    after (.brakeExpiry .ch0) (bench0 { braking1 ⟨.motion .s2 .express (.target 1500) .inc, false⟩ with
        owner := some ⟨.s2, true, .express, some (.target 1500), .inc⟩ })
      (fun t => ((t.ch .ch0).motion.map (·.dir), (t.ch .ch0).owner.map (·.dir))) = some (some .dec, some .inc) := by
  decide +kernel

/-- A motion and a reversal. -/
theorem test_witness_RunTimeLimitEnds :
    (bench0 running1).noneDue ∧ running1.coherent ∧ running1.runSince = some 0 ∧
      running1.motion.isSome = true ∧ (bench0 reversing1).noneDue ∧ reversing1.coherent ∧
      reversing1.runSince = some 0 ∧ reversing1.motion = some reversal1 := by
  refine ⟨?_, running1_coherent, ?_, ?_, ?_, reversing1_coherent, ?_, ?_⟩ <;>
    first | decide | (unfold State.noneDue; decide)

theorem test_witness_HoldTimerStops :
    (bench0 running1).noneDue ∧ running1.holdTimer = some 300 ∧ running1.motion.map (·.mode) = some .hold ∧
      running1.owner.isSome = true ∧ running1.drives = true ∧ running1.mstate = .running := by
  unfold State.noneDue; decide

theorem test_witness_TimersRunOut :
    let c : Channel := { rest0 with latches := (PerSlot.const none).set .s1 (some ⟨.toClose, 300⟩) }
    let l : Staging := ⟨.s0, .ch0, 32, 6000, 0, 0, [], 1000⟩
    let s : State := { bench0 { rest0 with strikes := 1, strikeTimer := some 30000 } with
      spacingTimer := some 150, staging := some l, quietTimer := some 100 }
    c.latches.get .s1 = some ⟨.toClose, 300⟩ ∧ s.spacingTimer = some 150 ∧ s.staging = some l ∧
      s.quietTimer = some 100 ∧ s.noneDue ∧ (s.ch .ch0).strikeTimer = some 30000 := by
  unfold State.noneDue; decide

theorem test_witness_BatterySampleIsTaken : bench.noneDue ∧ bench.samples.length ≤ 4 := by
  unfold State.noneDue; decide

/-- The first sample of a low and of a high battery. -/
theorem test_witness_BandStopsMotions :
    busy1.coherent ∧ busy1.noneDue ∧
      (∃ t, exec (.batterySample 304#10) busy1 = .next t ∧ t.band ≠ busy1.band) ∧
      (∃ t, exec (.batterySample 700#10) busy1 = .next t ∧ t.band ≠ busy1.band) := by
  refine ⟨busy1_coherent, ?_, ⟨_, rfl, ?_⟩, _, rfl, ?_⟩
  · unfold State.noneDue; decide
  · decide +kernel
  · decide +kernel

theorem test_witness_AssertionPausesTheDrives :
    busy1.noneDue ∧ busy1.coherent ∧ busy1.holdLine = ⟨false, none⟩ := by
  refine ⟨?_, busy1_coherent, by decide⟩
  unfold State.noneDue; decide

/-- The hold line ASSERTED with a paused motion: a release, and the expiry of the limit. -/
theorem test_witness_ReleaseResumes_HoldLimitEnds :
    held1.noneDue ∧ held1.coherent ∧ held1.holdLine = ⟨true, none⟩ ∧ held1.holdLimitTimer = some 2000 := by
  refine ⟨?_, held1_coherent, by decide, by decide⟩
  unfold State.noneDue; decide

/-- A paused reversal short of its target and one at it, both under the ASSERTED line. -/
def pausedReversal1 : Channel := { rest0 with
  mstate := .paused, motion := some { reversal1 with pausedFrom := some .reversing }
  datum := .referenced, position := 1500 }

theorem pausedReversal1_coherent : pausedReversal1.coherent := by
  unfold Channel.coherent Channel.ownerGoal
  have h : pausedReversal1.ownerFollows := by
    show if pausedReversal1.pausedMaster = true
      then pausedReversal1.owner.isSome = true ∧
        pausedReversal1.owner = pausedReversal1.motion.bind Motion.ownership
      else pausedReversal1.owner = none
    decide
  refine ⟨by decide, And.intro rfl rfl, h, ?_, ?_, ?_, ?_, ?_, ?_, ?_, ?_⟩ <;> decide

/-- CH0 short of its target, CH1 at it. -/
def held2 : State := { bench with
  channels := { bench.channels with c0 := pausedReversal1, c1 := { pausedReversal1 with position := 3000 } }
  holdLine := ⟨true, none⟩ }

theorem test_witness_ReleaseResumes_reversals :
    held2.noneDue ∧ held2.coherent ∧ held2.holdLine = ⟨true, none⟩ ∧
      (held2.ch .ch0).pausedReversal = true ∧ (held2.ch .ch1).pausedReversal = true ∧
      (held2.ch .ch0).position < 3000 ∧ 3000 ≤ (held2.ch .ch1).position := by
  refine ⟨?_, ⟨?_, by decide, by decide, by decide, by decide⟩, by decide, by decide, by decide, by decide, by decide⟩
  · unfold State.noneDue; decide
  · intro c _
    cases c
    · exact pausedReversal1_coherent
    · exact pausedReversal1_coherent
    all_goals exact rest0_coherent

theorem test_witness_ReceivedFramesArePlaced :
    let stop : BusFrame := ⟨.standard 0x5B0#11, false, false, [3#8, 63#8]⟩
    let four : List StopRequest := List.replicate 4 ⟨.s0, 1#8⟩
    tagSlot bench.slots 0x5B0#11 = some .s0 ∧ tagSlot bench.slots 0x123#11 = none ∧
      ([6#8, 0#8] : List Byte).head? ≠ some 3#8 ∧ bench.normal.length < 8 ∧
      stop.data = 3#8 :: 63#8 :: [] ∧ (bench.slots.get .s0).holds .stop = true ∧ bench.urgent.length < 4 ∧
      four = List.replicate 3 ⟨.s0, 1#8⟩ ++ [⟨.s0, 1#8⟩] ∧ (List.replicate 3 (0 : Nat)).length = 3 ∧
      ([3#8] : List Byte).length < 2 ∧ ((bench.slots.get .s0).write 1 100).holds .stop = false ∧
      8 ≤ (List.replicate 8 (⟨.s0, [6#8]⟩ : Request)).length := by decide

/-- A frame waiting, a frame on the bus, and one whose place was renewed. -/
theorem test_witness_AttemptsEnd :
    let f := statusFrame bench .ch0
    (∀ x ∈ ([⟨f, none, false⟩] : List TxEntry), x.onBus = none) ∧ bench.quietTimer = none ∧
      (⟨f, some f, false⟩ : TxEntry).onBus = some f ∧ (⟨f, some f, true⟩ : TxEntry).onBus = some f ∧
      (∀ z ∈ ([] ++ [⟨statusFrame bench .ch1, none, false⟩] : List TxEntry), z.onBus = none ∧ z.renewed = false) := by
  decide

/-- A queue of eleven answers and a STATUS, and one of twelve answers. -/
theorem test_witness_FullQueueEvicts :
    let f := answerFrame bench.globals .s0 1 .accepted [0]
    let s : State := { bench with
      txQueue := List.replicate 11 ⟨f, none, false⟩ ++ [⟨statusFrame bench .ch0, none, false⟩] }
    let t : State := { bench with txQueue := List.replicate 12 ⟨f, none, false⟩ }
    (s.queueOrdered ∧ s.txQueue.length = 12 ∧ f.tag = .answer ∧
      (statusFrame bench .ch0).tag.rank < f.tag.rank) ∧
    ((incidentFrame bench.globals record1).tag = .incident ∧
      (incidentDataA bench.globals .s0 0 record1).tag = .incidentData) ∧
    (t.queueOrdered ∧ t.txQueue.length = 12 ∧ ∀ e ∈ t.txQueue, ¬(e.onBus = none ∧ e.frame.tag.rank < f.tag.rank)) := by
  unfold State.queueOrdered; decide +kernel

theorem test_witness_StatusIsHanded :
    bench.noneDue ∧ bench.txQueue = [] ∧
      (bench.asking [6, 0]).takes .query .s0 [6#8, 0#8] [] ∧ Chan.ofNat? 0 = some .ch0 ∧
      (bench.ch .ch0).inBounds ∧ bench.volts ≤ 25575 := by
  unfold State.noneDue State.takes Channel.inBounds; decide

/-- CH0 open at 1500 with its datum. -/
def open0 : Channel := { rest0 with datum := .referenced, position := 1500 }

/-- An EXPRESS close, and a HOLD close at three strikes. -/
theorem test_witness_MoveIsGrantedFromIdle :
    let s := (bench0 open0).asking [1, 0, 0, 1]
    let r := (bench0 { open0 with strikes := 3 }).asking [1, 0, 1, 1]
    (s.noneDue ∧ s.takes .move .s0 [1#8, 0#8, 0#8, 1#8] [] ∧ s.partState = .run ∧ open0.tune.enable = true ∧
      open0.latches.get .s0 = none ∧ open0.allowed.get .s0 = true ∧ s.band = .normal ∧ open0.strikes ≠ 3 ∧
      open0.mstate = .idle ∧ open0.motion = none ∧ open0.owner = none ∧
      goalDir open0.tune.axis (open0.goalOf .express (.toEnd .toClose) (signedAt [1#8, 0#8, 0#8, 1#8] 4))
        open0.position = some .dec) ∧
    (r.noneDue ∧ r.takes .move .s0 [1#8, 0#8, 1#8, 1#8] [] ∧ moveModeOf (byteAt [1#8, 0#8, 1#8, 1#8] 2) = some .hold) := by
  unfold State.noneDue State.takes; decide

/-- A disabled channel and one at three strikes. -/
theorem test_witness_MoveChecksAreOrdered :
    let c : Channel := { open0 with tune := { ChanTuning.default with enable := false } }
    let d : Channel := { open0 with strikes := 3 }
    let s := (bench0 c).asking [1, 0, 0, 1]
    s.noneDue ∧ s.takes .move .s0 [1#8, 0#8, 0#8, 1#8] [] ∧ s.partState = .run ∧ c.latches.get .s0 = none ∧
      (!c.tune.enable) = true ∧ d.tune.enable = true ∧ d.allowed.get .s0 = true ∧ d.datum = .referenced ∧
      d.owner = none ∧ classify d.tune.axis false (some .dec) d.position = .close ∧ d.strikes = 3 := by
  unfold State.noneDue State.takes; decide

/-- The owner's refresh, a MOVE that matches a latch, and one that does not, from a slot locked out. -/
theorem test_witness_HoldToRunIsSilent :
    let c : Channel := { running1 with
      owner := some ⟨.s0, false, .hold, some (.toEnd .toClose), .dec⟩
      motion := some { closing1 with owner := some .s0, started := true } }
    let d : Channel := { open0 with latches := (PerSlot.const none).set .s0 (some ⟨.toClose, 300⟩) }
    let e : Channel := { d with allowed := (PerSlot.const true).set .s0 false }
    let s := (bench0 c).asking [1, 0, 1, 1]
    (s.noneDue ∧ s.takes .move .s0 [1#8, 0#8, 1#8, 1#8] [] ∧ s.partState = .run ∧
      c.refusesKind (.toEnd .toClose) = none ∧ c.latches.get .s0 = none ∧
      s.refuses .ch0 (c.wish .s0 .hold (.toEnd .toClose) 0) = none ∧
      (c.wish .s0 .hold (.toEnd .toClose) 0).dir = some .dec) ∧
    (((bench0 d).asking [1, 0, 1, 1]).noneDue ∧ d.latches.get .s0 = some ⟨.toClose, 300⟩ ∧
      d.refusesKind (.toEnd .toClose) = none ∧ d.goalOf .hold (.toEnd .toClose) 0 = .toEnd .toClose) ∧
    (e.goalOf .hold (.toEnd .toOpen) 0 ≠ .toEnd .toClose ∧ e.allowed.get .s0 = false) := by
  unfold State.noneDue State.takes; decide

/-- The grant of slot 0's HOLD MOVE of these bytes. -/
def asked (c : Channel) (k : GoalKind) : Grant := c.wish .s0 .hold k 0

/-- The bench with this channel as CH0 and a HOLD MOVE of slot 0 waiting, OPEN or CLOSE. -/
def asks (c : Channel) (k : Nat) : State := (bench0 c).asking [1, 0, 1, k]

/-- The owner of the close of slot 1. -/
def owner1 : Owner := ⟨.s1, false, .hold, some (.toEnd .toClose), .dec⟩

/-- An OPEN over the close of slot 1 in RUNNING. -/
theorem test_witness_move_opposite :
    ((asks running1 0).moves .s0 [1#8, 0#8, 1#8, 0#8] [] .ch0 .hold (.toEnd .toOpen) (asked running1 (.toEnd .toOpen)) ∧
      (asks running1 0).takesOver (asked running1 (.toEnd .toOpen)) owner1 ∧ running1.owner = some owner1 ∧
      (asked running1 (.toEnd .toOpen)).dir = some .inc ∧ running1.motion.map (·.dir) = some .dec) ∧
    running1.coherent := by
  refine ⟨?_, running1_coherent⟩
  unfold State.moves State.takesOver State.noneDue State.takes; decide

/-- The same in PAUSED. -/
theorem test_witness_move_opposite_paused :
    ((asks paused1 0).moves .s0 [1#8, 0#8, 1#8, 0#8] [] .ch0 .hold (.toEnd .toOpen) (asked paused1 (.toEnd .toOpen)) ∧
      (asks paused1 0).takesOver (asked paused1 (.toEnd .toOpen)) owner1 ∧ paused1.pausedMaster = true) ∧
    paused1.coherent := by
  refine ⟨?_, paused1_coherent⟩
  unfold State.moves State.takesOver State.noneDue State.takes; decide

/-- A CLOSE over it in flight. -/
theorem test_witness_move_in_flight :
    ((asks running1 1).moves .s0 [1#8, 0#8, 1#8, 1#8] [] .ch0 .hold (.toEnd .toClose)
        (asked running1 (.toEnd .toClose)) ∧
      (asks running1 1).takesOver (asked running1 (.toEnd .toClose)) owner1 ∧ running1.stripTrips = false ∧
      (asked running1 (.toEnd .toClose)).dir = some .dec) ∧ running1.coherent := by
  refine ⟨?_, running1_coherent⟩
  unfold State.moves State.takesOver State.noneDue State.takes; decide

/-- A CLOSE over it in QUEUED. -/
theorem test_witness_move_queued :
    (asks queued1 1).moves .s0 [1#8, 0#8, 1#8, 1#8] [] .ch0 .hold (.toEnd .toClose)
        (asked queued1 (.toEnd .toClose)) ∧
      (asks queued1 1).takesOver (asked queued1 (.toEnd .toClose)) owner1 ∧ queued1.owner = some owner1 := by
  unfold State.moves State.takesOver State.noneDue State.takes; decide

/-- A CLOSE in BRAKING, over a MOTION follow-on of slot 1. -/
theorem test_witness_move_over_follow_on :
    let o : Owner := ⟨.s1, true, .hold, some (.toEnd .toOpen), .inc⟩
    let c : Channel := { braking1 ⟨.motion .s1 .hold (.toEnd .toOpen) .inc, false⟩ with owner := some o }
    (asks c 1).moves .s0 [1#8, 0#8, 1#8, 1#8] [] .ch0 .hold (.toEnd .toClose) (asked c (.toEnd .toClose)) ∧
      (asks c 1).takesOver (asked c (.toEnd .toClose)) o ∧ c.mstate = .braking := by
  unfold State.moves State.takesOver State.noneDue State.takes; decide

/-- A CLOSE in BRAKING with the follow-on NONE. -/
theorem test_witness_move_after_a_stop :
    let d := braking1 ⟨.none, true⟩
    (asks d 1).moves .s0 [1#8, 0#8, 1#8, 1#8] [] .ch0 .hold (.toEnd .toClose) (asked d (.toEnd .toClose)) ∧
      d.owner = none ∧ (asked d (.toEnd .toClose)).dir = some .dec := by
  unfold State.moves State.noneDue State.takes; decide

/-- A still CLOSE in IDLE, on a TWO-SIDED channel at 0. -/
theorem test_witness_move_still :
    let e : Channel := { rest0 with tune := { ChanTuning.default with axis := .twoSided } }
    (asks e 1).moves .s0 [1#8, 0#8, 1#8, 1#8] [] .ch0 .hold (.toEnd .toClose) (asked e (.toEnd .toClose)) ∧
      e.owner = none ∧ e.mstate = .idle ∧ (asked e (.toEnd .toClose)).dir = none := by
  unfold State.moves State.noneDue State.takes; decide

/-- A still CLOSE that repeats the sender's own. -/
theorem test_witness_move_repeated :
    let f : Channel := { queued1 with
      tune := { ChanTuning.default with axis := .twoSided }, position := 0
      owner := some { owner1 with slot := .s0 } }
    (asks f 1).moves .s0 [1#8, 0#8, 1#8, 1#8] [] .ch0 .hold (.toEnd .toClose) (asked f (.toEnd .toClose)) ∧
      (asked f (.toEnd .toClose)).goal = .toEnd .toClose ∧ (asked f (.toEnd .toClose)).dir = none := by
  unfold State.moves State.noneDue State.takes; decide

/-- CH0 and CH1 open, and a GROUP CLOSE of both. -/
theorem test_witness_GroupIsGrantedFromIdle :
    let s := ({ bench with channels := { bench.channels with c0 := open0, c1 := open0 } } : State).asking [2, 3, 1]
    s.noneDue ∧ s.takes .group .s0 [2#8, 3#8, 1#8] [] ∧ s.partState = .run ∧
      groupGoalOf (byteAt [2#8, 3#8, 1#8] 2) = some .toClose ∧
      ∀ c ∈ Chan.all, inMask 3 c = true → (s.ch c).mstate = .idle ∧ (s.ch c).motion = none ∧
        (s.ch c).owner = none ∧ (s.ch c).refusesKind (.toEnd .toClose) = none ∧
        s.refuses c ((s.ch c).wish .s0 .express (.toEnd .toClose) 0) = none ∧
        (goalDir (s.ch c).tune.axis (.toEnd .toClose) (s.ch c).position).isSome = true := by
  unfold State.noneDue State.takes; decide

theorem test_witness_ReferenceIsGranted :
    let s := bench.asking [4, 0]
    s.noneDue ∧ s.takes .reference .s0 [4#8, 0#8] [] ∧ s.partState = .run ∧ (s.ch .ch0).tune.enable = true ∧
      (s.ch .ch0).allowed.get .s0 = true ∧ (s.ch .ch0).mstate = .idle ∧ s.band = .normal := by
  unfold State.noneDue State.takes; decide

/-- A SET that removes the owner of CH0, and a CLEAR. -/
theorem test_witness_LockoutChangesTheMap :
    let s := busy1.asking [5, 1, 2, 0]
    let r := busy1.asking [5, 1, 2, 1]
    (s.noneDue ∧ s.takes .lockout .s0 [5#8, 1#8, 2#8, 0#8] [] ∧ byteAt [5#8, 1#8, 2#8, 0#8] 3 = 0) ∧
    (r.takes .lockout .s0 [5#8, 1#8, 2#8, 1#8] [] ∧ byteAt [5#8, 1#8, 2#8, 1#8] 3 = 1) ∧ s.coherent := by
  refine ⟨?_, ?_, busy1_coherent⟩ <;> first | decide | (unfold State.noneDue State.takes; decide) | (unfold State.takes; decide)

theorem test_witness_StopStopsTheMask :
    let s : State := { busy1 with urgent := [⟨.s0, 63#8⟩] }
    s.noneDue ∧ s.urgent = ⟨.s0, 63#8⟩ :: [] ∧ s.coherent := by
  refine ⟨?_, by decide, busy1_coherent⟩
  unfold State.noneDue; decide

theorem test_witness_VehicleSetsRoughness :
    (bench.asking [7, 3]).noneDue ∧ (bench.asking [7, 3]).takes .vehicle .s0 [7#8, 3#8] [] ∧
      ({ bench with vehicleTimer := some 1000 } : State).vehicleTimer = some 1000 := by
  unfold State.noneDue State.takes; decide

theorem test_witness_ReadoutIsSent :
    let s := bench.asking [8, 0]
    let r : Readout := ⟨snapshotOf .ch0 rest0, 1⟩
    (s.noneDue ∧ s.takes .profileRead .s0 [8#8, 0#8] [] ∧ s.readout = none ∧ s.txQueue.length + 8 ≤ 12) ∧
      r.handed < r.snap.frames ∧ (∀ e ∈ s.txQueue, e.frame.tag ≠ .readout) ∧
      (let n := r.snap
      n.z = 32 ∧ n.check < 256 ∧ -16384 ≤ n.position ∧ n.position ≤ 16383 ∧ 15 < n.z / 2 ∧
        n.entries[2 * 15]? = some 0 ∧ n.entries[2 * 15 + 1]? = some 0) := by
  unfold State.noneDue State.takes; decide

/-- A BEGIN for CH0 with Lo 6000, and the first DATA of the load. -/
theorem test_witness_RestoreLoads :
    let s := State.reset.asking [9, 0, 32, 23, 112, 0, 0]
    let l : Staging := ⟨.s0, .ch0, 32, 6000, 0, 0, [], 1000⟩
    let r : State := { State.reset.asking [10, 0, 0, 0, 0, 0, 0] with staging := some l }
    (s.noneDue ∧ s.takes .restoreBegin .s0 [9#8, 0#8, 32#8, 23#8, 112#8, 0#8, 0#8] [] ∧ s.partState = .config ∧
      s.staging = none) ∧
    (r.noneDue ∧ r.takes .restoreData .s0 [10#8, 0#8, 0#8, 0#8, 0#8, 0#8, 0#8] [] ∧ r.partState = .config ∧
      r.staging = some l ∧ l.slot = .s0) := by
  unfold State.noneDue State.takes; decide

/-- The END of a load of 32 zones of 0, with a position. -/
theorem test_witness_RestoreInstalls :
    let l : Staging := ⟨.s0, .ch0, 32, 6000, 0, 16, List.replicate 32 0, 1000⟩
    let s : State := { State.reset.asking [11, 0, 0, 1, 168] with staging := some l }
    s.noneDue ∧ s.takes .restoreEnd .s0 [11#8, 0#8, 0#8, 1#8, 168#8] [] ∧ s.partState = .config ∧
      s.staging = some l ∧ l.expected = l.z / 2 ∧ l.z = (s.ch .ch0).tune.z ∧ l.lo = (s.ch .ch0).tune.lo ∧
      byteAt [11#8, 0#8, 0#8, 1#8, 168#8] 4 = checkByte l.z l.lo l.lt l.entries 0 true := by
  unfold State.noneDue State.takes; decide

theorem test_witness_CheckByteIsTheByteSum :
    3000 < 65536 ∧ 65535 < 65536 ∧ (∀ e ∈ [0, 65535], e < 65536) ∧ (-32768 : Int) ≤ -32768 ∧ (32767 : Int) < 32768 := by
  decide

/-- Zone length 188 on the window, 250 and 50 on the roof panel. -/
theorem test_witness_ZonesAreLookedUp :
    ((188 - 1) * 32 < 6000 ∧ 6000 ≤ 188 * 32) ∧ ((250 - 1) * 16 < 4000 ∧ 4000 ≤ 250 * 16) ∧
      ((50 - 1) * 16 < 800 ∧ 800 ≤ 50 * 16) := by decide

theorem test_witness_ZonesAdaptByAnEighth :
    (0 < 980 ∧ 980 ≤ 188752 / 188 ∧ 188752 / 188 - 980 ≤ 120) ∧
      (182360 / 188 < 980 ∧ 980 - 182360 / 188 ≤ 120) ∧ 120 < max (145200 / 121 - 990) (990 - 145200 / 121) := by
  decide

theorem test_witness_IncidentReadSendsTheRecord :
    (bench.asking [12, 0]).noneDue ∧ (bench.asking [12, 0]).takes .incidentRead .s0 [12#8, 0#8] [] ∧
      bench.incidents.length ≤ 0 ∧
      ({ bench with incidents := [incidentOf bench .ch0 .edge none] } : State).incidents[0]?.isSome = true := by
  unfold State.noneDue State.takes; decide

theorem test_witness_ClearClears :
    (bench.asking [13, 7, 63]).noneDue ∧ (bench.asking [13, 7, 63]).takes .clear .s0 [13#8, 7#8, 63#8] [] := by
  unfold State.noneDue State.takes; decide

theorem test_witness_ConfigEntersWhenIdle :
    (bench.asking [14]).noneDue ∧ (bench.asking [14]).takes .config .s0 [14#8] [] := by
  unfold State.noneDue State.takes; decide

theorem test_witness_LeavingConfigClamps :
    let s := State.reset.asking [15]
    s.noneDue ∧ s.takes .start .s0 [15#8] [] ∧ s.partState = .config ∧ s.configTimer = some 3000 := by
  unfold State.noneDue State.takes; decide

/-- A parameter of a channel, of the part and of a slot. -/
theorem test_witness_TuneStoresInRange :
    let s := State.reset.asking [16, 99, 2, 0, 9]
    s.noneDue ∧ s.takes .tune .s0 [16#8, 99#8, 2#8, 0#8, 9#8] [] ∧ s.partState = .config ∧
      tuneTarget 99 2 = some (.slot .s2 (.span 0 7)) ∧
      tuneTarget 11 5 = some (.chan .ch5 (.members [16, 32, 64])) ∧
      tuneTarget 64 255 = some (.global (.span 1 6)) ∧ (ParamRange.span 0 7).has 7 = true ∧
      (ParamRange.members [16, 32, 64]).has 64 = true := by
  unfold State.noneDue State.takes; decide

/-- A change of Z and of To, a value already held, and a TUNE in RUN. -/
theorem test_witness_TuneActsOnTheDatum :
    rest0.tune.read 11 ≠ 16 ∧ rest0.tune.read 10 ≠ 0 ∧ rest0.tune.read 11 = 32 ∧
      (bench.asking [16, 99, 2, 0, 9]).noneDue ∧
      (bench.asking [16, 99, 2, 0, 9]).takes .tune .s0 [16#8, 99#8, 2#8, 0#8, 9#8] [] ∧ bench.partState = .run := by
  unfold State.noneDue State.takes; decide

/-- A motion with an end condition met, one with none, and a REFERENCE. -/
theorem test_witness_EndConditionsAreOrdered :
    running1.mstate = .running ∧ running1.motion.isSome = true ∧ starting1.mstate = .starting ∧
      endCause atLimit1.tune .referenced (.toEnd .toOpen) .inc 6000 = some .limit ∧
      endCause running1.tune running1.datum (.toEnd .toClose) .dec running1.position = none := by decide

/-- No byte 0, the least and the greatest unknown kind, a TARGET MOVE one byte too short, and a TUNE without the
right. -/
theorem test_witness_ScreenRefuses :
    ((bench.asking []).noneDue ∧ bench.urgent = [] ∧ (bench.asking []).normal = ⟨.s0, []⟩ :: [] ∧
      byteAt [0#8] 0 = 0 ∧ 16 < byteAt [17#8] 0 ∧ 16 < byteAt [255#8] 0) ∧
    (byteAt [1#8, 0#8, 0#8, 3#8, 0#8] 3 = 3 ∧ byteAt [1#8, 0#8, 0#8, 3#8, 0#8] 0 = 1 ∧
      ([1#8, 0#8, 0#8, 3#8, 0#8] : List Byte).length < 6) ∧
    (byteAt [16#8, 1#8, 0#8, 0#8, 0#8] 0 = 16 ∧ (bench.slots.get .s1).rights.getLsbD 4 = false) := by
  unfold State.noneDue; decide

end Sys2Proof.Machine
end

section
/-! PROOFS. What a TUNE of a channel parameter does to the zone table and the datum (R24, R57, R187, R188): the three
effects a change can have, what each does to every field, and the TUNE that is refused in RUN. -/

namespace Sys2Proof.Machine

/-! ### The three effects of a changed channel parameter (R24, R57, R188) -/

/-- The parameters of the travel geometry, whose change clears the zone table: axis, Lo, Lt and Z (R57). -/
abbrev ofGeometry (n : Nat) : Prop := n = 2 ∨ n = 8 ∨ n = 9 ∨ n = 11

/-- A change that loses the datum and leaves the zone table: of count mode, of polarity, or of To with the position
outside the bounds as they now are (R24). -/
abbrev Channel.losesDatumOnly (n : Nat) (c : Channel) : Prop :=
  n = 5 ∨ n = 6 ∨ (n = 10 ∧ outOfTravel c.tune c.position = true)

/-- A change clears the zones and loses the datum, or only loses the datum, or does neither. -/
theorem Channel.tuned_cases (n : Nat) (c : Channel) :
    (ofGeometry n ∧ c.tuned n = c.clearZones.setDatum .unreferenced) ∨
    (¬ ofGeometry n ∧ c.losesDatumOnly n ∧ c.tuned n = c.setDatum .unreferenced) ∨
    (¬ ofGeometry n ∧ ¬ c.losesDatumOnly n ∧ c.tuned n = c) := by
  unfold Channel.tuned
  split
  · next hGeometry => exact .inl ⟨hGeometry, rfl⟩
  · next hGeometry =>
    refine .inr ?_
    split
    · next hCounting => exact .inl ⟨hGeometry, hCounting.imp_right .inl, rfl⟩
    · next hCounting =>
      split
      · next hTravel => exact .inl ⟨hGeometry, .inr (.inr hTravel), rfl⟩
      · next hTravel =>
        exact .inr ⟨hGeometry, by tauto, rfl⟩

/-! ### What the effects do to each field -/

@[simp] theorem Channel.clearZones_tune (c : Channel) : c.clearZones.tune = c.tune := rfl
@[simp] theorem Channel.clearZones_zones (c : Channel) : c.clearZones.zones = List.replicate c.tune.z 0 := rfl
@[simp] theorem Channel.clearZones_accum (c : Channel) : c.clearZones.accum = List.replicate c.tune.z ⟨0, 0⟩ := rfl
@[simp] theorem Channel.clearZones_datum (c : Channel) : c.clearZones.datum = c.datum := rfl
@[simp] theorem Channel.clearZones_statusDue (c : Channel) : c.clearZones.statusDue = c.statusDue := rfl

@[simp] theorem Channel.tuned_tune (n : Nat) (c : Channel) : (c.tuned n).tune = c.tune := by
  obtain ⟨-, h⟩ | ⟨-, -, h⟩ | ⟨-, -, h⟩ := c.tuned_cases n <;> simp [h]

theorem Channel.tuned_zones (n : Nat) (c : Channel) :
    (c.tuned n).zones = if ofGeometry n then List.replicate c.tune.z 0 else c.zones := by
  obtain ⟨hg, h⟩ | ⟨hg, -, h⟩ | ⟨hg, -, h⟩ := c.tuned_cases n
  · rw [if_pos hg, h, Channel.setDatum_zones, Channel.clearZones_zones]
  · rw [if_neg hg, h, Channel.setDatum_zones]
  · rw [if_neg hg, h]

theorem Channel.tuned_accum (n : Nat) (c : Channel) :
    (c.tuned n).accum = if ofGeometry n then List.replicate c.tune.z ⟨0, 0⟩ else c.accum := by
  obtain ⟨hg, h⟩ | ⟨hg, -, h⟩ | ⟨hg, -, h⟩ := c.tuned_cases n
  · rw [if_pos hg, h, Channel.setDatum_accum, Channel.clearZones_accum]
  · rw [if_neg hg, h, Channel.setDatum_accum]
  · rw [if_neg hg, h]

theorem Channel.tuned_datum (n : Nat) (c : Channel) :
    (c.tuned n).datum = if ofGeometry n ∨ c.losesDatumOnly n then .unreferenced else c.datum := by
  obtain ⟨hg, h⟩ | ⟨-, hl, h⟩ | ⟨hg, hl, h⟩ := c.tuned_cases n
  · rw [if_pos (.inl hg), h, Channel.setDatum_datum]
  · rw [if_pos (.inr hl), h, Channel.setDatum_datum]
  · rw [if_neg (not_or.2 ⟨hg, hl⟩), h]

/-- A change queues STATUS where it changes the datum state, and for nothing else (R24). -/
theorem Channel.tuned_statusDue (n : Nat) (c : Channel) :
    (c.tuned n).statusDue = (c.statusDue || decide ((c.tuned n).datum ≠ c.datum)) := by
  obtain ⟨-, h⟩ | ⟨-, -, h⟩ | ⟨-, -, h⟩ := c.tuned_cases n <;>
    simp [h, Channel.setDatum_statusDue, eq_comm]

/-- A change touches no field but the zone table, its accumulators, the datum with its trips, and the STATUS mark. -/
theorem Channel.tuned_frame (n : Nat) (c : Channel) :
    { c.tuned n with
      zones := c.zones, accum := c.accum, datum := c.datum, trips := c.trips, statusDue := c.statusDue } = c := by
  obtain ⟨-, h⟩ | ⟨-, -, h⟩ | ⟨-, -, h⟩ := c.tuned_cases n <;> rw [h] <;> rfl

/-! ### Storing a value into a channel's tuning (R187) -/

theorem Channel.tuneTo_of_held {n v : Nat} {u : Channel} (h : u.tune.read n = v) : u.tuneTo n v = u := if_pos h

theorem Channel.tuneTo_of_change {n v : Nat} {u : Channel} (h : u.tune.read n ≠ v) :
    u.tuneTo n v = ({ u with tune := u.tune.write v n }).tuned n := if_neg h

theorem ChanTuning.ltUsed_eq (t : ChanTuning) : (t.ltUsed : Int) = if t.axis = .oneSided then 0 else (t.lt : Int) := by
  unfold ChanTuning.ltUsed
  cases t.axis <;> rfl

/-- The bounds under a new To (R17, R24). -/
theorem outOfTravel_write_overtravel (t : ChanTuning) (v : Nat) (p : Int) :
    outOfTravel (t.write v 10) p = true ↔
      p < -((if t.axis = .oneSided then 0 else (t.lt : Int)) + v) ∨ (t.lo : Int) + v < p := by
  have hLt : (t.write v 10).ltUsed = t.ltUsed := rfl
  rw [← t.ltUsed_eq, or_comm, ← hLt]
  simp only [outOfTravel, Bool.or_eq_true, decide_eq_true_eq]
  rfl

/-- With the new value stored, the datum alone is lost as the old bounds and the new To tell (R24). -/
theorem Channel.losesDatumOnly_write (u : Channel) (n v : Nat) :
    ({ u with tune := u.tune.write v n } : Channel).losesDatumOnly n ↔
      n = 5 ∨ n = 6 ∨ (n = 10 ∧
        (u.position < -((if u.tune.axis = .oneSided then 0 else (u.tune.lt : Int)) + v) ∨
          (u.tune.lo : Int) + v < u.position)) := by
  refine or_congr Iff.rfl (or_congr Iff.rfl (and_congr_right ?_))
  rintro rfl
  exact outOfTravel_write_overtravel u.tune v u.position

/-! ### A TUNE taken in RUN (R24, R187) -/

/-- In RUN a TUNE is answered STATE and does nothing. -/
theorem handleTune_of_run {s : State} (h : s.partState = .run) (slot : Slot) (b : List Byte) :
    handleTune slot b s = (s, .answer .state [byteAt b 1, byteAt b 2]) := if_pos h

/-- Outside CONFIG, taking a request touches its FIFO only (R183). -/
theorem State.taken_of_run {s : State} (h : s.partState = .run) (k : RequestKind) (rest : List Request) :
    s.taken k rest = { s with normal := rest } := by
  have hne : ¬ (k.right = some .service ∧ ({ s with normal := rest } : State).partState = .config) := by simp [h]
  exact if_neg hne

/-- A TUNE that is taken carries its code in byte 0 (R192). -/
theorem byteAt_zero_of_takes_tune {s : State} {slot : Slot} {b : List Byte} {rest : List Request}
    (h : s.takes .tune slot b rest) : byteAt b 0 = 16 := by
  obtain ⟨-, -, hKind, -, -⟩ := h
  have hCode := code_of_kindOf hKind
  unfold RequestKind.ofCode at hCode
  split at hCode <;> simp_all

/-- With no STATUS due, an ANSWER leaves every channel as it is. -/
theorem conclude_answer_channelsKept {s : State} (h : s.noneDue) (slot : Slot) (kind : Nat) (r : Reply)
    (trailer : List Nat) : channelsKept s (conclude slot kind (s, .answer r trailer)) := by
  intro c
  rw [conclude_answer, flush_of_noneDue h, handFrame_ch]

theorem execTune_of_run {s : State} {slot : Slot} {b : List Byte} {rest : List Request}
    (ht : s.takes .tune slot b rest) (hr : s.partState = .run) :
    exec .tune s = .next (conclude slot 16
      ({ s with normal := rest }, .answer .state [byteAt b 1, byteAt b 2])) := by
  change Host.Outcome.next (serve .tune handleTune s) = _
  rw [serve_of_takes ht, byteAt_zero_of_takes_tune ht, State.taken_of_run hr,
    handleTune_of_run (s := { s with normal := rest }) hr]

/-- Settles O59: a changed value by the effects of `Channel.tuned`, a held one by `Channel.tuneTo`, and RUN by the
refusal of `handleTune`. -/
theorem tuneActsOnTheDatum : Obligations.TuneActsOnTheDatum := by
  unfold Obligations.TuneActsOnTheDatum
  refine ⟨fun u n v hChange => ?_, fun u n v => Channel.tuneTo_of_held, fun s slot b rest hNone hTakes hRun => ?_⟩
  · rw [Channel.tuneTo_of_change hChange]
    intro w clears lt
    have hTune : w.tune = u.tune.write v n := Channel.tuned_tune n _
    refine ⟨hTune, ?_, ?_, ?_, Channel.tuned_statusDue n _, ?_⟩
    · rw [hTune]
      exact Channel.tuned_zones n _
    · rw [hTune]
      exact Channel.tuned_accum n _
    · have hLost := or_congr (Iff.refl (ofGeometry n)) (u.losesDatumOnly_write n v)
      exact (Channel.tuned_datum n _).trans (if_congr hLost rfl rfl)
    · have hFrame := Channel.tuned_frame n { u with tune := u.tune.write v n }
      exact congrArg (fun c : Channel => { c with tune := u.tune }) hFrame
  · refine ⟨_, execTune_of_run hTakes hRun, ?_, ?_, ?_, ?_⟩
    · rw [conclude_answer_eq]
    · exact conclude_answered (s := s) (u := { s with normal := rest }) slot 16 _ _ (Nat.le_succ _)
    · exact conclude_answer_channelsKept (s := { s with normal := rest }) hNone slot 16 _ _
    · rw [conclude_answer_eq]

end Sys2Proof.Machine
end

section
/-! PROOFS. The corrected period of the pinch detector (R32): the voltage clamp, the quotient rounded half up, and what
the clamp to 1 to 65535 does to it. -/

namespace Sys2Proof.Machine

/-- The three ranges of R32 determine the clamped voltage. -/
theorem clampedVolts_eq {v vc : Nat} (hLow : v < 9000 → vc = 9000) (hMid : 9000 ≤ v → v ≤ 16000 → vc = v)
    (hHigh : 16000 < v → vc = 16000) : max Config.vcLow (min v Config.vcHigh) = vc := by
  unfold Config.vcLow Config.vcHigh
  obtain h | h | h : v < 9000 ∨ (9000 ≤ v ∧ v ≤ 16000) ∨ 16000 < v := by omega
  · rw [hLow h]; omega
  · rw [hMid h.1 h.2]; omega
  · rw [hHigh h]; omega

/-- Adding half the divisor before the division rounds half up: x / 13500 lies in [q − 1/2, q + 1/2), both sides taken
times 2 · 13500. -/
theorem roundHalfUp_bounds (x : Nat) :
    2 * 13500 * ((x + 6750) / 13500) ≤ 2 * x + 13500 ∧
      2 * x + 13500 < 2 * 13500 * ((x + 6750) / 13500 + 1) := by
  have hLower : (x + 6750) / 13500 * 13500 ≤ x + 6750 := Nat.div_mul_le_self ..
  have hUpper : x + 6750 < 13500 * ((x + 6750) / 13500 + 1) := Nat.lt_mul_div_succ _ (by decide)
  constructor <;> omega

/-- The corrected period lies in 1 to 65535. Above 1 it is at most the rounded quotient, below 65535 at least that. -/
theorem correctedPeriod_clamps {p v vc : Nat} (hVc : max Config.vcLow (min v Config.vcHigh) = vc) :
    1 ≤ correctedPeriod p v ∧ correctedPeriod p v ≤ 65535 ∧
      (correctedPeriod p v ≠ 1 → correctedPeriod p v ≤ (p * vc + 6750) / 13500) ∧
      (correctedPeriod p v ≠ 65535 → (p * vc + 6750) / 13500 ≤ correctedPeriod p v) := by
  have hClamp : correctedPeriod p v = max 1 (min 65535 ((p * vc + 6750) / 13500)) := hVc ▸ rfl
  generalize (p * vc + 6750) / 13500 = q at hClamp ⊢
  omega

/-- Settles O12: each bound of the rounded quotient passes to the corrected period on the side where the clamp leaves
it. -/
theorem periodIsCorrected : Obligations.PeriodIsCorrected := by
  unfold Obligations.PeriodIsCorrected
  intro p v vc _ _ hLow hMid hHigh
  obtain ⟨hOne, hMax, hBelow, hAbove⟩ := correctedPeriod_clamps (p := p) (clampedVolts_eq hLow hMid hHigh)
  obtain ⟨hLower, hUpper⟩ := roundHalfUp_bounds (p * vc)
  refine ⟨hOne, hMax, fun hNe => ?_, fun hNe => ?_⟩
  · exact (Nat.mul_le_mul_left _ (hBelow hNe)).trans hLower
  · exact hUpper.trans_le (Nat.mul_le_mul_left _ (Nat.succ_le_succ (hAbove hNe)))

end Sys2Proof.Machine
end

section
/-! PROOFS. The zone lookup (R58, R59, R60): along one axis half of n zones, what the zone says of the magnitude; and
which half each position is looked up in. -/

namespace Sys2Proof.Machine

/-! ### The lookup along one half of an axis -/

/-- The zone of a magnitude along a length of n zones: the whole axis of R58, or one of the two halves of R59. -/
def zoneAlong (length n magnitude : Nat) : Nat := min (magnitude / ceilDiv length n) (n - 1)

/-- The rounded-up quotient is the least length of which n zones reach over a. -/
theorem ceilDiv_eq {a n len : Nat} (hn : 0 < n) (hLen : 0 < len) (hBelow : (len - 1) * n < a)
    (hReach : a ≤ len * n) : ceilDiv a n = len := by
  obtain ⟨l, rfl⟩ : ∃ l, len = l + 1 := ⟨len - 1, by omega⟩
  rw [Nat.add_sub_cancel] at hBelow
  rw [Nat.add_mul, Nat.one_mul] at hReach
  refine Nat.div_eq_of_lt_le ?_ ?_
  · rw [Nat.add_mul, Nat.one_mul]; omega
  · rw [Nat.add_mul, Nat.add_mul, Nat.one_mul]; omega

theorem zoneAlong_lt {length n m : Nat} (hn : 0 < n) : zoneAlong length n m < n := by
  unfold zoneAlong; omega

/-- A zone begins at its multiple of the zone length, and every zone but the last ends a zone length later. -/
theorem zoneAlong_covers {length n len : Nat} (m : Nat) (hn : 0 < n) (hLen : 0 < len)
    (hBelow : (len - 1) * n < length) (hReach : length ≤ len * n) :
    zoneAlong length n m * len ≤ m ∧
      (zoneAlong length n m + 1 < n → m ≤ zoneAlong length n m * len + (len - 1)) := by
  have hZone : zoneAlong length n m = min (m / len) (n - 1) := by
    rw [zoneAlong, ceilDiv_eq hn hLen hBelow hReach]
  rw [hZone]
  refine ⟨(Nat.mul_le_mul_right len (Nat.min_le_left ..)).trans (Nat.div_mul_le_self ..), fun hNotLast => ?_⟩
  have hQuotient : min (m / len) (n - 1) = m / len := by omega
  have hNext : m < m / len * len + len := Nat.lt_div_mul_add hLen
  rw [hQuotient]
  omega

/-! ### The half a position is looked up in -/

section
variable {t : ChanTuning} {p : Int}

theorem zoneOf_oneSided (hAxis : t.axis = .oneSided) : zoneOf t p = zoneAlong t.lo t.z p.natAbs := by
  simp only [zoneOf, hAxis, zoneAlong]

theorem zoneOf_slide (hAxis : t.axis = .twoSided) (hp : 0 ≤ p) :
    zoneOf t p = zoneAlong t.lo (t.z / 2) p.natAbs := by
  simp only [zoneOf, hAxis, if_pos hp, zoneAlong]

theorem zoneOf_tilt (hAxis : t.axis = .twoSided) (hp : p < 0) (hLt : 0 < t.lt) :
    zoneOf t p = t.z / 2 + zoneAlong t.lt (t.z / 2) p.natAbs := by
  simp only [zoneOf, hAxis, if_neg hp.not_ge, if_neg hLt.ne', zoneAlong]

theorem zoneOf_noTilt (hAxis : t.axis = .twoSided) (hp : p < 0) (hLt : t.lt = 0) : zoneOf t p = t.z / 2 := by
  simp only [zoneOf, hAxis, if_neg hp.not_ge, if_pos hLt]

/-- Every position has one of the Z zones, on either axis (R60). -/
theorem zoneOf_lt (hHalf : 0 < t.z / 2) : zoneOf t p < t.z := by
  have hAlong (length : Nat) := zoneAlong_lt (length := length) (m := p.natAbs) hHalf
  cases hAxis : t.axis with
  | oneSided => rw [zoneOf_oneSided hAxis]; exact zoneAlong_lt (by omega)
  | twoSided =>
    obtain hp | hp := le_or_gt 0 p
    · rw [zoneOf_slide hAxis hp]; have := hAlong t.lo; omega
    · obtain hLt | hLt := Nat.eq_zero_or_pos t.lt
      · rw [zoneOf_noTilt hAxis hp hLt]; omega
      · rw [zoneOf_tilt hAxis hp hLt]; have := hAlong t.lt; omega

end

/-- Settles O52: each clause is the coverage of `zoneAlong` on the axis or half that the position is looked up in. -/
theorem zonesAreLookedUp : Obligations.ZonesAreLookedUp := by
  unfold Obligations.ZonesAreLookedUp
  intro t p len hz _
  have hHalf : 0 < t.z / 2 := by omega
  have hHalves : t.z = t.z / 2 + t.z / 2 := by omega
  refine ⟨zoneOf_lt hHalf, fun hAxis hBelow hReach hLen => ?_, fun hAxis hp hBelow hReach hLen => ?_,
    fun hAxis hp hLt hBelow hReach hLen => ?_, zoneOf_noTilt⟩
  · rw [zoneOf_oneSided hAxis]
    exact zoneAlong_covers _ (by omega) hLen hBelow hReach
  · rw [zoneOf_slide hAxis hp]
    exact ⟨zoneAlong_lt hHalf, zoneAlong_covers _ hHalf hLen hBelow hReach⟩
  · rw [zoneOf_tilt hAxis hp hLt, Nat.add_sub_cancel_left]
    obtain ⟨hStart, hEnd⟩ := zoneAlong_covers p.natAbs hHalf hLen hBelow hReach
    exact ⟨Nat.le_add_right .., hStart, fun hNotLast => hEnd (by omega)⟩

end Sys2Proof.Machine
end

section
/-! PROOFS. The end conditions of a motion (R84, R88, R90): each line of the table as a condition of its own, the first
line that holds, and what an edge report of a driving channel does with it. -/

namespace Sys2Proof.Machine

/-! ### The goal as the end conditions read it (R84) -/

theorem Goal.held_eq_close {g : Goal} : g.held = .toEnd .toClose ↔ g = .toEnd .toClose ∨ g = .target 0 := by
  cases g with
  | toEnd e => simp [Goal.held]
  | target x => by_cases hx : x = 0 <;> simp [Goal.held, hx]

theorem Goal.held_eq_target {g : Goal} {x : Int} : g.held = .target x ↔ g = .target x ∧ x ≠ 0 := by
  cases g with
  | toEnd e => simp [Goal.held]
  | target y =>
    by_cases hy : y = 0
    · simp only [Goal.held, if_pos hy, reduceCtorEq, Goal.target.injEq, false_iff]; omega
    · simp only [Goal.held, if_neg hy, Goal.target.injEq]; omega

/-! ### The lines of R88's table -/

/-- The line CLOSED. -/
def closedMet (t : ChanTuning) (g : Goal) (p : Int) : Prop :=
  (g = .toEnd .toClose ∨ g = .target 0) ∧
    ((t.axis = .twoSided ∧ p = 0) ∨ (t.axis = .oneSided ∧ t.closedEnd = .position ∧ p ≤ 0))

/-- The line TARGET. -/
def targetMet (g : Goal) (d : Dir) (p : Int) : Prop :=
  ∃ x, g = .target x ∧ x ≠ 0 ∧ ((d = .inc ∧ x ≤ p) ∨ (d = .dec ∧ p ≤ x))

/-- The line LIMIT. -/
def limitMet (t : ChanTuning) (datum : Datum) (d : Dir) (p : Int) : Prop :=
  datum = .referenced ∧ ((d = .inc ∧ (t.lo : Int) ≤ p) ∨ (t.axis = .twoSided ∧ d = .dec ∧ p ≤ -(t.lt : Int)))

section
variable {t : ChanTuning} {datum : Datum} {g : Goal} {d : Dir} {p : Int}

theorem closedMet_iff_held : closedMet t g p ↔ g.held = .toEnd .toClose ∧
    ((t.axis = .twoSided ∧ p = 0) ∨ (t.axis = .oneSided ∧ t.closedEnd = .position ∧ p ≤ 0)) := by
  rw [closedMet, Goal.held_eq_close]

theorem targetMet_iff_held : targetMet g d p ↔
    ∃ x, g.held = .target x ∧ ((d = .inc ∧ x ≤ p) ∨ (d = .dec ∧ p ≤ x)) := by
  simp only [targetMet, Goal.held_eq_target, and_assoc]

open scoped Classical in
/-- The end condition that holds is the first line of the table that holds. -/
theorem endCause_eq : endCause t datum g d p =
    if closedMet t g p then some .closed
    else if targetMet g d p then some .target
    else if limitMet t datum d p then some .limit
    else none := by
  rw [endCause]
  simp only [closedMet_iff_held, targetMet_iff_held]
  cases g.held with
  | target x =>
    simp only [Goal.target.injEq, exists_eq_left']
    grind [limitMet]
  | toEnd e =>
    cases e with
    | toClose => cases hAxis : t.axis <;> grind [limitMet]
    | toOpen | toTilt => grind [limitMet]

/-! Each cause is met where its own line holds and no line before it does. -/

theorem endCause_eq_closed : endCause t datum g d p = some .closed ↔ closedMet t g p := by
  rw [endCause_eq]; split_ifs <;> simp_all

theorem endCause_eq_target : endCause t datum g d p = some .target ↔ ¬closedMet t g p ∧ targetMet g d p := by
  rw [endCause_eq]; split_ifs <;> simp_all

theorem endCause_eq_limit : endCause t datum g d p = some .limit ↔
    ¬closedMet t g p ∧ ¬targetMet g d p ∧ limitMet t datum d p := by
  rw [endCause_eq]; split_ifs <;> simp_all

theorem endCause_eq_none : endCause t datum g d p = none ↔
    ¬closedMet t g p ∧ ¬targetMet g d p ∧ ¬limitMet t datum d p := by
  rw [endCause_eq]; split_ifs <;> simp_all

end

/-! ### The edge report of a driving channel -/

/-- REFERENCE motions are not checked (R88). -/
theorem Channel.motionEnd_eq {u : Channel} {m : Motion} (h : u.motion = some m) :
    u.motionEnd = if m.mode = .reference then none
      else m.goal.bind fun g => endCause u.tune u.datum g m.dir u.position := by
  simp only [Channel.motionEnd, h]
  cases m.goal <;> rfl

theorem Channel.motionEnd_of_reference {u : Channel} {m : Motion} (h : u.motion = some m)
    (hMode : m.mode = .reference) : u.motionEnd = none := by
  rw [Channel.motionEnd_eq h, if_pos hMode]

/-- The duty formed anew at an edge is the only field an edge without an end condition changes (R87). -/
theorem Channel.refreshDuty_frame (u : Channel) : { u.refreshDuty with duty := u.duty } = u := by
  unfold Channel.refreshDuty
  split <;> rfl

@[simp] theorem Channel.refreshDuty_mstate (u : Channel) : u.refreshDuty.mstate = u.mstate :=
  congrArg (·.mstate) u.refreshDuty_frame

@[simp] theorem Channel.refreshDuty_position (u : Channel) : u.refreshDuty.position = u.position :=
  congrArg (·.position) u.refreshDuty_frame

@[simp] theorem Channel.refreshDuty_datum (u : Channel) : u.refreshDuty.datum = u.datum :=
  congrArg (·.datum) u.refreshDuty_frame

section
variable {s : State} {c : Chan}

theorem driveEdge_of_met {cause : StopCause} (hDrives : (s.ch c).mstate = .starting ∨ (s.ch c).mstate = .running)
    (hMet : (s.ch c).motionEnd = some cause) : driveEdge c s = s.modCh c (·.endMotion s.clock cause) := by
  obtain h | h := hDrives <;> simp only [driveEdge, h, hMet]

theorem driveEdge_of_notMet (hDrives : (s.ch c).mstate = .starting ∨ (s.ch c).mstate = .running)
    (hMet : (s.ch c).motionEnd = none) : driveEdge c s = s.modCh c (·.refreshDuty) := by
  obtain h | h := hDrives <;> simp only [driveEdge, h, hMet]

end

/-- Only a motion that is no REFERENCE meets an end condition, so its end keeps the datum (R21, R88). -/
theorem Channel.endMotion_datum_of_met {u : Channel} {cause : StopCause} (h : u.motionEnd = some cause) (now : Nat)
    (x : StopCause) : (u.endMotion now x).datum = u.datum := by
  rw [Channel.endMotion_datum, if_neg]
  rintro ⟨-, hMode, -⟩
  obtain ⟨m, hMotion, hReference⟩ := Option.map_eq_some_iff.1 hMode
  simp [Channel.motionEnd_of_reference hMotion hReference] at h

/-- Settles O20: the lines of the table by `endCause_eq`, the edge report by the two equations of `driveEdge`. -/
theorem endConditionsAreOrdered : Obligations.EndConditionsAreOrdered := by
  unfold Obligations.EndConditionsAreOrdered
  refine ⟨fun t datum g d p => ⟨endCause_eq_closed, endCause_eq_target, endCause_eq_limit, endCause_eq_none⟩,
    fun s c m hDrives hMotion => ?_⟩
  intro t met
  have hEnd : (s.ch c).motionEnd = met := Channel.motionEnd_eq hMotion
  have hOne : oneChannel c s t := driveEdge_oneChannel c s
  clear_value met
  cases met with
  | none =>
    have ht : t = s.modCh c (·.refreshDuty) := driveEdge_of_notMet hDrives hEnd
    have hCh : t.ch c = (s.ch c).refreshDuty := by rw [ht, State.ch_modCh_self]
    rw [if_pos rfl, hCh]
    exact ⟨⟨Channel.refreshDuty_mstate _, Channel.refreshDuty_frame _⟩, Channel.refreshDuty_position _,
      Channel.refreshDuty_datum _, hOne.others, by rw [ht]; rfl⟩
  | some cause =>
    have ht : t = s.modCh c (·.endMotion s.clock cause) := driveEdge_of_met hDrives hEnd
    have hCh : t.ch c = (s.ch c).endMotion s.clock cause := by rw [ht, State.ch_modCh_self]
    have hSome : (s.ch c).motion ≠ none := by simp [hMotion]
    rw [if_neg (by simp), hCh]
    exact ⟨⟨by simp, by simp, by simp, by simp, Channel.endMotion_braking hSome _ _⟩, by simp,
      Channel.endMotion_datum_of_met hEnd _ _, hOne.others, by rw [ht]; rfl⟩

end Sys2Proof.Machine
end

section
/-! PROOFS. The ranges of one channel's numbers (R7, R14, R26, R35, R36, R51, R56, R62, R82, R159): `Channel.Keeps` says
that a channel put in the place of another keeps them, and each operation on a channel is shown to. -/

namespace Sys2Proof.Machine

/-! ### The tuning that bounds rest on -/

/-- Every parameter of a channel's tuning lies in its range (section 9.5). -/
def ChanTuning.inRange (t : ChanTuning) : Prop := ∀ n < 128, ∀ r ∈ chanRange n, r.has (t.read n) = true

/-- The ranges that bounds of other fields rest on, as inequalities. -/
theorem ChanTuning.inRange.bounds {t : ChanTuning} (h : t.inRange) :
    t.lo ≤ 16000 ∧ t.lt ≤ 4000 ∧ (t.z = 16 ∨ t.z = 32 ∨ t.z = 64) ∧ (t.n = 1 ∨ t.n = 2 ∨ t.n = 4 ∨ t.n = 8) ∧
      t.q ≤ 8 ∧ t.runDuty ≤ 1000 ∧ t.startDuty ≤ 1000 ∧ t.stopDuty ≤ 1000 ∧ t.limpDuty ≤ 1000 ∧
      t.runLimit ≤ 20000 := by
  have hLo := h 8 (by decide) _ rfl
  have hLt := h 9 (by decide) _ rfl
  have hZ := h 11 (by decide) _ rfl
  have hN := h 16 (by decide) _ rfl
  have hQ := h 18 (by decide) _ rfl
  have hRun := h 26 (by decide) _ rfl
  have hStart := h 27 (by decide) _ rfl
  have hStop := h 28 (by decide) _ rfl
  have hLimp := h 29 (by decide) _ rfl
  have hLimit := h 34 (by decide) _ rfl
  simp [ParamRange.has, ChanTuning.read] at hLo hLt hZ hN hQ hRun hStart hStop hLimp hLimit
  omega

theorem ChanTuning.ltUsed_le (t : ChanTuning) : t.ltUsed ≤ t.lt := by
  unfold ChanTuning.ltUsed; split <;> omega

/-! ### Keeping the ranges -/

/-- A channel `x` in the place of `c` has its tuning, and its numbers in their ranges where those of `c` are; with the
roughness level `rough` at most 3, since a motion record takes it over. -/
structure Channel.Keeps (rough : Nat) (c x : Channel) : Prop where
  tune : x.tune = c.tune
  bounds : rough ≤ 3 → c.tune.inRange → c.inBounds → x.inBounds ∧ (c.periodsInBounds → x.periodsInBounds)

/-- The numbers of a channel that only the counter, the detector, the profile store and the strikes change. -/
def Channel.numbers (c : Channel) :=
  (c.tune, c.position, c.stepFaults, c.reverseFaults, c.speedFaults, c.settled, c.ring, c.lastF, c.lastT, c.strikes,
    c.runDuty, c.zones, c.accum)

/-- What the record holds of run-time and roughness. -/
def Motion.numbers (m : Motion) := (m.runTime, m.maxRough)

/-- The change from `c` to `x` moves no number: trips and duty stay or become 0, and RUNNING is not entered. -/
structure Channel.Quiet (c x : Channel) : Prop where
  numbers : x.numbers = c.numbers
  trips : x.trips = c.trips ∨ x.trips = 0
  duty : x.duty = c.duty ∨ x.duty = 0
  running : x.mstate = .running → c.mstate = .running
  motion : ∀ m ∈ x.motion, m.numbers ∈ c.motion.map Motion.numbers

section
variable {r now : Nat} {c x y : Channel}

theorem Channel.Keeps.refl (r : Nat) (c : Channel) : c.Keeps r c := ⟨rfl, fun _ _ h => ⟨h, id⟩⟩

theorem Channel.Keeps.trans (h : c.Keeps r x) (k : x.Keeps r y) : c.Keeps r y where
  tune := k.tune.trans h.tune
  bounds hr ht hb :=
    have ⟨hb', hp⟩ := h.bounds hr ht hb
    have ⟨hb'', hp'⟩ := k.bounds hr (h.tune ▸ ht) hb'
    ⟨hb'', hp' ∘ hp⟩

theorem Channel.Quiet.keeps (r : Nat) (h : c.Quiet x) : c.Keeps r x := by
  obtain ⟨hNumbers, hTrips, hDuty, hRunning, hMotion⟩ := h
  simp only [Channel.numbers, Prod.mk.injEq] at hNumbers
  obtain ⟨hTune, hPos, hStep, hRev, hSpeed, hSettled, hRing, hF, hT, hStrikes, hRun, hZones, hAccum⟩ := hNumbers
  refine ⟨hTune, fun _ _ hb => ⟨?_, fun hp => ?_⟩⟩
  · unfold Channel.inBounds at hb ⊢
    rw [hTune, hPos, hStep, hRev, hSpeed, hSettled, hRing, hF, hT, hStrikes, hRun, hZones, hAccum]
    have hRecord : ∀ m ∈ x.motion, m.runTime ≤ 20000 ∧ m.maxRough ≤ 3 := by
      intro m hm
      obtain ⟨k, hk, hEq⟩ := Option.map_eq_some_iff.1 (hMotion m hm)
      simp only [Motion.numbers, Prod.mk.injEq] at hEq
      grind
    grind
  · unfold Channel.periodsInBounds at hp ⊢
    rw [hTune, hRing, hZones, hAccum]
    exact ⟨fun hs => hp.1 (hRunning hs), hp.2⟩

theorem Channel.Quiet.trans (h : c.Quiet x) (k : x.Quiet y) : c.Quiet y where
  numbers := k.numbers.trans h.numbers
  trips := by obtain e | e := k.trips <;> grind [h.trips]
  duty := by obtain e | e := k.duty <;> grind [h.duty]
  running := h.running ∘ k.running
  motion m hm := by
    obtain ⟨n, hn, e⟩ := Option.map_eq_some_iff.1 (k.motion m hm)
    exact e ▸ h.motion n hn

/-- A change that leaves every number and the motion state. -/
theorem Channel.Quiet.of_eq (hn : x.numbers = c.numbers) (ht : x.trips = c.trips) (hd : x.duty = c.duty)
    (hs : x.mstate = c.mstate) (hm : x.motion.map Motion.numbers = c.motion.map Motion.numbers) : c.Quiet x where
  numbers := hn
  trips := .inl ht
  duty := .inl hd
  running := by simp [hs]
  motion m hmem := hm ▸ Option.mem_map_of_mem _ hmem

theorem Channel.Keeps.of_eq (hn : x.numbers = c.numbers) (ht : x.trips = c.trips) (hd : x.duty = c.duty)
    (hs : x.mstate = c.mstate) (hm : x.motion.map Motion.numbers = c.motion.map Motion.numbers) : c.Keeps r x :=
  (Channel.Quiet.of_eq hn ht hd hs hm).keeps r

theorem Channel.Quiet.refl (c : Channel) : c.Quiet c := .of_eq rfl rfl rfl rfl rfl

/-! ### The operations that move no number -/

theorem Channel.mapMotion_quiet (c : Channel) {f : Motion → Motion} (hf : ∀ m, (f m).numbers = m.numbers) :
    c.Quiet (c.mapMotion f) :=
  .of_eq rfl rfl rfl rfl (by simp [Channel.mapMotion, Function.comp_def, hf])

theorem Channel.setMState_quiet (c : Channel) {m : MotionState} (h : m ≠ .running) : c.Quiet (c.setMState m) where
  numbers := rfl
  trips := by rw [Channel.setMState_trips]; split <;> simp
  duty := .inl rfl
  running hs := absurd hs h
  motion _ hm := Option.mem_map_of_mem _ hm

theorem Channel.setDatum_quiet (c : Channel) (d : Datum) : c.Quiet (c.setDatum d) where
  numbers := rfl
  trips := by rw [Channel.setDatum_trips]; split <;> simp
  duty := .inl rfl
  running := id
  motion _ hm := Option.mem_map_of_mem _ hm

theorem Channel.latch_quiet (c : Channel) (now : Nat) (o : Owner) : c.Quiet (c.latch now o) := by
  unfold Channel.latch
  split <;> exact .of_eq rfl rfl rfl rfl rfl

theorem Channel.release_quiet (c : Channel) (now : Nat) (l : Bool) : c.Quiet (c.release now l) := by
  refine .of_eq (by simp [Channel.numbers]) (by simp) (by simp) (by simp) ?_
  rw [Channel.release_motion]
  split
  · rfl
  · exact Option.map_map ..

theorem Channel.endSeek_quiet (c : Channel) (cause : StopCause) : c.Quiet (c.endSeek cause) := by
  unfold Channel.endSeek
  split
  · exact c.setDatum_quiet _
  · exact .refl c

theorem Channel.stopWith_quiet (c : Channel) (now : Nat) (cause : StopCause) : c.Quiet (c.stopWith now cause) :=
  have hCause : c.Quiet { c with stopCause := cause } := .of_eq rfl rfl rfl rfl rfl
  hCause.trans ((Channel.endSeek_quiet _ cause).trans (Channel.release_quiet _ now _))

theorem Channel.cancelFollowOn_quiet (c : Channel) (now : Nat) (cause : StopCause) :
    c.Quiet (c.cancelFollowOn now cause) :=
  (c.release_quiet now (decide (cause ≠ StopCause.timeout))).trans (.of_eq rfl rfl rfl rfl (Option.map_map ..))

theorem Channel.setBridge_quiet (c : Channel) (now : Nat) (b : Bridge) : c.Quiet (c.setBridge now b 0) where
  numbers := by simp [Channel.numbers]
  trips := by simp
  duty := by simp
  running := by simp
  motion m hm := by rw [Channel.setBridge_motion] at hm; exact Option.mem_map_of_mem _ hm

theorem Channel.pauseAfterBrake_quiet (c : Channel) (now : Nat) (x : PausedFrom) :
    c.Quiet (c.pauseAfterBrake now x) := by
  unfold Channel.pauseAfterBrake
  refine .trans ?_ (Channel.setBridge_quiet _ _ _)
  refine .trans ?_ (Channel.setMState_quiet _ (by decide))
  exact .of_eq rfl rfl rfl rfl (Option.map_map ..)

theorem Channel.resume_quiet (c : Channel) : c.Quiet c.resume := by
  unfold Channel.resume
  refine .trans ?_ (Channel.setMState_quiet _ (by decide))
  exact c.mapMotion_quiet fun _ => rfl

theorem Channel.setDir_quiet (d : Option Dir) (c : Channel) : c.Quiet (c.setDir d) :=
  .of_eq rfl rfl rfl rfl (Option.map_map ..)

theorem Channel.confirmOwner_quiet (d : Option Dir) (c : Channel) : c.Quiet (c.confirmOwner d) := by
  unfold Channel.confirmOwner
  split <;> exact .of_eq rfl rfl rfl rfl rfl

theorem Channel.restartStall_quiet (c : Channel) (now : Nat) : c.Quiet (c.restartStall now) := by
  unfold Channel.restartStall
  split <;> exact .of_eq rfl rfl rfl rfl rfl

theorem Channel.supersede_quiet (c : Channel) (now : Nat) (slot : Slot) : c.Quiet (c.supersede now slot) := by
  unfold Channel.supersede
  split
  · exact .refl c
  · next o _ =>
    have hLatch : c.Quiet (if o.slot = slot then c else c.latch now o) := by
      split
      · exact .refl c
      · exact c.latch_quiet now o
    generalize (if o.slot = slot then c else c.latch now o) = x at hLatch
    dsimp only
    split
    · exact hLatch.trans (Channel.setDatum_quiet _ _)
    · exact hLatch

/-! ### The operations that move a number -/

/-- A changed record keeps the ranges where its numbers lie in them. -/
theorem Channel.mapMotion_keeps (r : Nat) (c : Channel) {f : Motion → Motion}
    (hf : r ≤ 3 → c.tune.inRange → ∀ m, m.runTime ≤ 20000 → m.maxRough ≤ 3 →
      (f m).runTime ≤ 20000 ∧ (f m).maxRough ≤ 3) : c.Keeps r (c.mapMotion f) := by
  refine ⟨rfl, fun hr ht hb => ⟨?_, id⟩⟩
  have hf := hf hr ht
  simp only [Channel.inBounds, Channel.mapMotion, Option.mem_map, forall_exists_index, and_imp,
    forall_apply_eq_imp_iff₂] at hb ⊢
  grind

theorem Channel.freezeRun_keeps (r : Nat) (c : Channel) (now : Nat) : c.Keeps r (c.freezeRun now) := by
  have hRecord := c.mapMotion_keeps r (f := fun m => { m with runTime := min c.tune.runLimit (c.runElapsed now) })
    fun _ ht m _ hRough => by
      obtain ⟨-, -, -, -, -, -, -, -, -, hLimit⟩ := ht.bounds
      exact ⟨(Nat.min_le_left ..).trans hLimit, hRough⟩
  exact hRecord.trans (.of_eq rfl rfl rfl rfl rfl)

theorem Channel.enterBraking_keeps (r : Nat) (c : Channel) (now : Nat) (b : Brake) :
    c.Keeps r (c.enterBraking now b) := by
  unfold Channel.enterBraking
  refine .trans ?_ ((Channel.setBridge_quiet _ _ _).keeps r)
  refine .trans ?_ ((Channel.setMState_quiet _ (by decide)).keeps r)
  refine (c.freezeRun_keeps r now).trans (Channel.Quiet.keeps r ?_)
  exact .of_eq rfl rfl rfl rfl (Option.map_map ..)

theorem Channel.endMotion_keeps (r : Nat) (c : Channel) (now : Nat) (x : StopCause) :
    c.Keeps r (c.endMotion now x) :=
  ((c.stopWith_quiet now x).keeps r).trans (Channel.enterBraking_keeps _ _ _ _)

theorem Channel.setStrikes_keeps (r : Nat) (c : Channel) {n : Nat} (h : n ≤ 3) : c.Keeps r (c.setStrikes n) := by
  refine ⟨rfl, fun _ _ hb => ⟨?_, id⟩⟩
  simp only [Channel.inBounds, Channel.setStrikes] at hb ⊢
  grind

theorem Channel.clearStrikes_keeps (r : Nat) (c : Channel) : c.Keeps r c.clearStrikes := by
  unfold Channel.clearStrikes
  refine .trans ?_ (Channel.setStrikes_keeps r _ (Nat.zero_le 3))
  exact .of_eq rfl rfl rfl rfl rfl

/-- Within Ladapt a learned zone moves toward the average by an eighth of the difference, rounded down (R65). -/
theorem adaptZone_within {ladapt pref : Nat} {x : Accum} (hx : x.count ≠ 0) (hp : pref ≠ 0)
    (h : max (x.sum / x.count - pref) (pref - x.sum / x.count) ≤ ladapt) :
    adaptZone ladapt pref x =
      if pref ≤ x.sum / x.count then pref + (x.sum / x.count - pref) / 8 else pref - (pref - x.sum / x.count) / 8 := by
  simp only [adaptZone, if_neg hx, if_neg hp]
  rw [if_pos (by omega)]
  split
  · next hle =>
    obtain ⟨d, hd⟩ := Nat.exists_eq_add_of_le hle
    rw [hd, show ((pref + d : Nat) : Int) - pref = d by omega, Int.tdiv_eq_ediv_of_nonneg (by omega)]
    omega
  · next hlt =>
    obtain ⟨d, hd⟩ := Nat.exists_eq_add_of_lt (not_le.1 hlt)
    rw [show ((x.sum / x.count : Nat) : Int) - pref = -((pref - x.sum / x.count : Nat) : Int) by omega, Int.neg_tdiv,
      Int.tdiv_eq_ediv_of_nonneg (by omega)]
    omega

/-- An adapted zone lies between the old value and the average, or is one of them (R65). -/
theorem adaptZone_le {ladapt pref bound : Nat} {x : Accum} (hp : pref ≤ bound) (hx : x.sum ≤ x.count * bound) :
    adaptZone ladapt pref x ≤ bound := by
  have hAvg : x.sum / x.count ≤ bound := Nat.div_le_of_le_mul hx
  by_cases hCount : x.count = 0
  · simpa [adaptZone, hCount] using hp
  by_cases hPref : pref = 0
  · simpa [adaptZone, hCount, hPref] using hAvg
  by_cases hNear : max (x.sum / x.count - pref) (pref - x.sum / x.count) ≤ ladapt
  · rw [adaptZone_within hCount hPref hNear]; split <;> omega
  · simp only [adaptZone, if_neg hCount, if_neg hPref]
    rw [if_neg (by omega)]
    exact hp

theorem Channel.adapt_keeps (r : Nat) (c : Channel) : c.Keeps r c.adapt := by
  refine ⟨rfl, fun _ _ hb => ⟨?_, fun hp => ?_⟩⟩
  · simp only [Channel.inBounds, Channel.adapt, List.length_zipWith] at hb ⊢
    grind
  · obtain ⟨hRing, hPeriods, hZones, hAccum⟩ := hp
    refine ⟨hRing, hPeriods, fun p hp => ?_, hAccum⟩
    obtain ⟨i, hi, rfl⟩ := List.getElem_of_mem hp
    simp only [Channel.adapt, List.getElem_zipWith]
    simp only [Channel.adapt, List.length_zipWith] at hi
    exact adaptZone_le (hZones _ (List.getElem_mem _)) (hAccum _ (List.getElem_mem _)).2

theorem Channel.handEnd_keeps (r : Nat) (c : Channel) : c.Keeps r c.handEnd := by
  unfold Channel.handEnd
  split
  · exact .refl r c
  · next m _ =>
    have hAdapt : c.Keeps r (if cleanClose c.stopCause m then c.adapt else c) := by
      split
      · exact c.adapt_keeps r
      · exact .refl r c
    generalize (if cleanClose c.stopCause m then c.adapt else c) = x at hAdapt
    dsimp only
    split
    · exact hAdapt.trans (x.clearStrikes_keeps r)
    · exact hAdapt

theorem Channel.enterIdle_keeps (r : Nat) (c : Channel) (now : Nat) : c.Keeps r (c.enterIdle now) := by
  unfold Channel.enterIdle
  refine .trans ?_ ((Channel.setBridge_quiet _ _ _).keeps r)
  refine .trans ?_ ((Channel.setMState_quiet _ (by decide)).keeps r)
  refine (c.handEnd_keeps r).trans (Channel.Quiet.keeps r ?_)
  refine (c.handEnd.release_quiet now true).trans ⟨rfl, .inl rfl, .inl rfl, id, by simp⟩

theorem Channel.dropMotion_keeps (r : Nat) (c : Channel) (now : Nat) (x : StopCause) :
    c.Keeps r (c.dropMotion now x) :=
  ((c.stopWith_quiet now x).keeps r).trans (Channel.enterIdle_keeps r _ now)

theorem Channel.takeIncident_keeps (r : Nat) (c : Channel) (now : Nat) (x : IncidentCause) (ref : Nat) :
    c.Keeps r (c.takeIncident now x ref) := by
  have hCause : c.Quiet { c with stopCause := x.stop } := .of_eq rfl rfl rfl rfl rfl
  have hDatum : c.Quiet (if c.datum = .seeking then ({ c with stopCause := x.stop }).setDatum .unreferenced
      else { c with stopCause := x.stop }) := by
    split
    · exact hCause.trans (Channel.setDatum_quiet _ _)
    · exact hCause
  refine (hDatum.keeps r).trans ?_
  refine ((Channel.release_quiet _ now true).keeps r).trans ?_
  refine (Channel.enterBraking_keeps r _ now ⟨.reversal, false⟩).trans ?_
  exact .of_eq rfl rfl rfl rfl (Option.map_map ..)

end
end Sys2Proof.Machine
end

section
/-! PROOFS. The ranges of one channel's numbers, continued: duties (R82, R86, R87), drive phases, counters, the detector's
ring and trips, run accumulators, grants and the pause for the hold line. -/

namespace Sys2Proof.Machine

section
variable {r now : Nat} {c x y : Channel}

/-! ### Duties (R86, R87) -/

/-- A duty on the line from `a` to `b` is at most the larger of the two. -/
theorem lineDuty_le {a b bound : Nat} {k w : Nat} (ha : a ≤ bound) (hb : b ≤ bound) (hk : k ≤ w) :
    ((a : Int) + (((b : Int) - a) * k) / (w : Int)).toNat ≤ bound := by
  obtain rfl | hw := Nat.eq_zero_or_pos w
  · simpa using ha
  · have hLine : (((b : Int) - a) * k) / (w : Int) ≤ bound - a := by
      refine Int.ediv_le_of_le_mul (by omega) ?_
      calc ((b : Int) - a) * k ≤ (bound - a) * k := by gcongr
        _ ≤ (bound - a) * w := Int.mul_le_mul_of_nonneg_left (by omega) (by omega)
    omega

theorem Channel.runningDuty_le (ht : c.tune.inRange) (h : c.runDuty ≤ 1000) : c.runningDuty ≤ 1000 := by
  obtain ⟨-, -, -, -, -, -, -, hStop, -⟩ := ht.bounds
  unfold Channel.runningDuty
  split
  · next hSoft => exact lineDuty_le hStop h hSoft.2.2.2
  · exact h

theorem Channel.rampDuty_le {elapsed : Nat} (ht : c.tune.inRange) (h : c.runDuty ≤ 1000)
    (he : elapsed ≤ c.tune.ramp) : c.rampDuty elapsed ≤ 1000 := by
  obtain ⟨-, -, -, -, -, -, hStart, -⟩ := ht.bounds
  exact lineDuty_le hStart h he

theorem Channel.chosenDuty_le (ht : c.tune.inRange) (b : Bool) : c.chosenDuty b ≤ 1000 := by
  obtain ⟨-, -, -, -, -, hRun, -, -, hLimp, -⟩ := ht.bounds
  unfold Channel.chosenDuty
  split
  · exact hLimp
  · exact hRun

/-- A changed duty keeps the ranges where it is at most 1000. -/
theorem Channel.duty_keeps (r : Nat) (h : c.tune.inRange → c.inBounds → x.duty ≤ 1000)
    (hx : { x with duty := c.duty } = c) : c.Keeps r x := by
  have hField {α : Type} (f : Channel → α) : f { x with duty := c.duty } = f c := congrArg f hx
  refine ⟨hField (·.tune), fun _ ht hb => ?_⟩
  have hDuty := h ht hb
  rw [← hx] at hb
  constructor
  · simp only [Channel.inBounds] at hb ⊢
    grind
  · intro hp
    rw [← hx] at hp
    exact hp

theorem Channel.refreshDuty_keeps (r : Nat) (c : Channel) : c.Keeps r c.refreshDuty := by
  refine c.duty_keeps r (fun ht hb => ?_) c.refreshDuty_frame
  unfold Channel.inBounds at hb
  unfold Channel.refreshDuty
  split
  · exact Channel.runningDuty_le ht (by grind)
  · grind

theorem Channel.setBridge_keeps (r : Nat) (c : Channel) (now : Nat) (b : Bridge) {d : Nat}
    (h : c.tune.inRange → c.inBounds → d ≤ 1000) : c.Keeps r (c.setBridge now b d) := by
  refine ⟨by simp, fun _ ht hb => ?_⟩
  have hDuty := h ht hb
  simp only [Channel.inBounds, Channel.periodsInBounds, Channel.setBridge_position, Channel.setBridge_stepFaults,
    Channel.setBridge_reverseFaults, Channel.setBridge_speedFaults, Channel.setBridge_settled,
    Channel.setBridge_trips, Channel.setBridge_ring, Channel.setBridge_lastF, Channel.setBridge_lastT,
    Channel.setBridge_strikes, Channel.setBridge_duty, Channel.setBridge_runDuty, Channel.setBridge_zones,
    Channel.setBridge_accum, Channel.setBridge_tune, Channel.setBridge_motion, Channel.setBridge_mstate] at hb ⊢
  grind

/-! ### Starting and running (R62, R85, R86) -/

theorem Channel.zeroAccum_keeps (r : Nat) (c : Channel) : c.Keeps r c.zeroAccum := by
  refine ⟨rfl, fun _ _ hb => ⟨?_, fun hp => ?_⟩⟩
  · simp only [Channel.inBounds, Channel.zeroAccum, List.length_replicate] at hb ⊢
    grind
  · obtain ⟨hRing, hPeriods, hZones, -⟩ := hp
    refine ⟨hRing, hPeriods, hZones, fun a ha => ?_⟩
    obtain rfl := List.eq_of_mem_replicate ha
    simp

theorem Channel.enterRunning_keeps (r : Nat) (c : Channel) : c.Keeps r c.enterRunning := by
  refine ⟨rfl, fun _ _ hb => ⟨?_, fun hp => ?_⟩⟩
  · simp only [Channel.inBounds, Channel.enterRunning, Channel.setMState, List.length_nil] at hb ⊢
    grind
  · obtain ⟨-, -, hZones, hAccum⟩ := hp
    exact ⟨fun _ => Nat.zero_le _, by simp [Channel.enterRunning], hZones, hAccum⟩

/-- A new record, with the run duty of the motion that begins, keeps the ranges where its numbers lie in them. -/
theorem Channel.newRecord_keeps (r : Nat) (hn : x.numbers = ({ c with runDuty := x.runDuty } : Channel).numbers)
    (ht : x.trips = c.trips) (hd : x.duty = c.duty) (hs : x.mstate = c.mstate)
    (hRun : c.tune.inRange → c.inBounds → x.runDuty ≤ 1000)
    (hm : r ≤ 3 → c.inBounds → ∀ m ∈ x.motion, m.runTime ≤ 20000 ∧ m.maxRough ≤ 3) : c.Keeps r x := by
  simp only [Channel.numbers, Prod.mk.injEq] at hn
  obtain ⟨hTune, hPos, hStep, hRev, hSpeed, hSettled, hRing, hF, hT, hStrikes, -, hZones, hAccum⟩ := hn
  refine ⟨hTune, fun hr hTuned hb => ⟨?_, fun hp => ?_⟩⟩
  · have hRun := hRun hTuned hb
    have hm := hm hr hb
    unfold Channel.inBounds at hb ⊢
    rw [hTune, hPos, hStep, hRev, hSpeed, hSettled, hRing, hF, hT, hStrikes, hZones, hAccum, ht, hd]
    grind
  · unfold Channel.periodsInBounds at hp ⊢
    rwa [hTune, hRing, hZones, hAccum, hs]

theorem Channel.enterStarting_keeps (r : Nat) (c : Channel) (now level : Nat) (normal : Bool) {m : Motion}
    (hl : level = r) (hm : c.motion = some m) : c.Keeps r (c.enterStarting now level normal m) := by
  unfold Channel.enterStarting
  extract_lets rd c1 c2 c3
  have h1 : c.Keeps r c1 := by
    refine .trans ?_ (Channel.zeroAccum_keeps r _)
    refine Channel.newRecord_keeps r rfl rfl rfl rfl (fun ht _ => Channel.chosenDuty_le ht _) fun hr hb => ?_
    unfold Channel.inBounds at hb
    grind
  have h2 : c.Keeps r c2 := by
    unfold c2; split
    · exact h1.trans ((Channel.setDatum_quiet _ _).keeps r)
    · exact h1
  have h3 : c.Keeps r c3 := h2.trans ((Channel.setMState_quiet _ (by decide)).keeps r)
  split
  · refine .trans ?_ (Channel.refreshDuty_keeps r _)
    refine .trans (h3.trans (Channel.enterRunning_keeps r c3)) (Channel.setBridge_keeps r _ _ _ fun ht _ => ?_)
    exact Channel.chosenDuty_le (h3.tune ▸ ht) _
  · refine h3.trans (Channel.setBridge_keeps r _ _ _ fun ht _ => ?_)
    obtain ⟨-, -, -, -, -, -, hStart, -⟩ := ht.bounds
    exact hStart

/-! ### The travel counter (R7, R14, R20, R22) -/

theorem stepPosition_bounds {p : Int} (h : Config.posMin ≤ p ∧ p ≤ Config.posMax) (d : Dir) :
    Config.posMin ≤ stepPosition p d ∧ stepPosition p d ≤ Config.posMax := by
  cases d <;> simp only [stepPosition] <;> split <;> omega

theorem raiseCounter_le {n : Nat} (m : CounterMode) (h : n ≤ 255) : raiseCounter m n ≤ 255 := by
  unfold raiseCounter Config.maxFaults
  split
  · omega
  · split <;> omega

theorem countFault_le {n : Nat} (m : CounterMode) (th : Nat) (fault : Bool) (h : n ≤ 255) :
    (countFault m th fault n).1 ≤ 255 := by
  unfold countFault
  split
  · exact raiseCounter_le m h
  · exact h

/-- New counter values keep the ranges where they lie in them. -/
theorem Channel.counters_keeps (r : Nat) (c : Channel) {a b d : Nat}
    (h : c.inBounds → a ≤ 255 ∧ b ≤ 255 ∧ d ≤ 255) :
    c.Keeps r { c with stepFaults := a, reverseFaults := b, speedFaults := d } := by
  refine ⟨rfl, fun _ _ hb => ⟨?_, id⟩⟩
  have := h hb
  simp only [Channel.inBounds] at hb ⊢
  grind

theorem Channel.setSummary_quiet (c : Channel) (f : FaultSet) : c.Quiet (c.setSummary f) :=
  .of_eq rfl rfl rfl rfl rfl

theorem Channel.clearFaults_keeps (r : Nat) (c : Channel) : c.Keeps r c.clearFaults := by
  unfold Channel.clearFaults
  refine .trans ?_ ((Channel.setSummary_quiet _ _).keeps r)
  exact c.counters_keeps r fun _ => by omega

/-- A new position keeps the ranges where it lies in them. -/
theorem Channel.position_keeps (r : Nat) (c : Channel) {p : Int}
    (h : c.tune.inRange → c.inBounds → Config.posMin ≤ p ∧ p ≤ Config.posMax) :
    c.Keeps r { c with position := p } := by
  refine ⟨rfl, fun _ ht hb => ⟨?_, id⟩⟩
  have := h ht hb
  simp only [Channel.inBounds] at hb ⊢
  grind

theorem Channel.datumFound_keeps (r : Nat) (c : Channel) {p : Int}
    (h : c.tune.inRange → Config.posMin ≤ p ∧ p ≤ Config.posMax) : c.Keeps r (c.datumFound p) := by
  unfold Channel.datumFound
  refine .trans ?_ (Channel.clearFaults_keeps r _)
  refine .trans ?_ ((Channel.setDatum_quiet _ _).keeps r)
  exact c.position_keeps r fun ht _ => h ht

theorem ChanTuning.inRange.referencePosition {t : ChanTuning} (h : t.inRange) :
    Config.posMin ≤ t.referencePosition ∧ t.referencePosition ≤ Config.posMax := by
  obtain ⟨-, hLt, -⟩ := h.bounds
  have := t.ltUsed_le
  unfold ChanTuning.referencePosition Config.posMin Config.posMax
  split <;> omega

/-! ### The detector (R26, R32 to R38, R62) -/

theorem correctedPeriod_bounds (p v : Nat) : 1 ≤ correctedPeriod p v ∧ correctedPeriod p v ≤ 65535 := by
  simp only [correctedPeriod, Config.maxPeriod]
  omega

/-- A ring of periods in range holds such periods after another joins, at most N on a ring that held no more. -/
theorem pushRing_bounds {n p : Nat} {ring : List Nat} (hp : 1 ≤ p ∧ p ≤ 65535) (h : ∀ x ∈ ring, 1 ≤ x ∧ x ≤ 65535) :
    ∀ x ∈ pushRing n p ring, 1 ≤ x ∧ x ≤ 65535 := by
  intro x hx
  have hMem : x ∈ ring ++ [p] := by
    simp only [pushRing] at hx
    split at hx
    · exact List.mem_of_mem_drop hx
    · exact hx
  obtain hx | hx := List.mem_append.1 hMem
  · exact h x hx
  · obtain rfl := List.mem_singleton.1 hx
    exact hp

theorem pushRing_length {n p k : Nat} {ring : List Nat} (hn : n ≤ k) (h : ring.length ≤ k) :
    (pushRing n p ring).length ≤ k := by
  simp only [pushRing]
  split
  · simp; omega
  · next hle => omega

/-- The accumulators of a table keep their ranges where an average in range joins one (R62). -/
theorem accumulate_bounds {z a : Nat} {acc : List Accum} (ha : a ≤ 65535)
    (h : ∀ x ∈ acc, x.count ≤ 65535 ∧ x.sum ≤ x.count * 65535) :
    ∀ x ∈ accumulate z a acc, x.count ≤ 65535 ∧ x.sum ≤ x.count * 65535 := by
  intro x hx
  obtain ⟨i, hi, rfl⟩ := List.getElem_of_mem hx
  simp only [accumulate, List.getElem_modify]
  simp only [accumulate, List.length_modify] at hi
  have hOld := h _ (List.getElem_mem hi)
  split
  · split
    · exact hOld
    · next hCount => simp only [Config.maxCount] at hCount ⊢; omega
  · exact hOld

/-- A new trip count, in range, keeps the ranges. -/
theorem Channel.trips_keeps (r : Nat) (c : Channel) {n : Nat} (h : c.tune.inRange → n ≤ 7) :
    c.Keeps r { c with trips := n } := by
  refine ⟨rfl, fun _ ht hb => ⟨?_, id⟩⟩
  have := h ht
  simp only [Channel.inBounds] at hb ⊢
  grind

/-- The stages after the ring keep the ranges on a channel in RUNNING, whose ring holds at most N periods. -/
theorem Channel.qualify_keeps (r arough : Nat) (closing : Bool) (c : Channel) (hs : c.mstate = .running) :
    c.Keeps r (c.qualify arough closing).1 := by
  unfold Channel.qualify
  extract_lets a z pref f t armed x
  have hx : c.Keeps r x := by
    refine ⟨rfl, fun _ ht hb => ⟨?_, fun hp => ?_⟩⟩
    · have hF : f ≤ 1023 := Nat.min_le_left ..
      have hT : 1 ≤ t ∧ t ≤ 1023 := by simp only [t, thresholdOf, Config.maxForce]; omega
      have hAccum : (if armed = true then accumulate z a c.accum else c.accum).length = c.accum.length := by
        split <;> simp [accumulate]
      simp only [Channel.inBounds, x, hAccum] at hb ⊢
      grind
    · obtain ⟨hRing, hPeriods, hZones, hAccum⟩ := hp
      refine ⟨hRing, hPeriods, hZones, ?_⟩
      have hSum : c.ring.sum ≤ c.tune.n * 65535 :=
        (List.sum_le_card_nsmul _ 65535 fun p hp => (hPeriods p hp).2).trans (Nat.mul_le_mul_right _ (hRing hs))
      simp only [x]
      split
      · exact accumulate_bounds (Nat.div_le_of_le_mul hSum) hAccum
      · exact hAccum
  split
  · split
    · exact hx.trans (x.trips_keeps r fun _ => Nat.zero_le 7)
    · next hQ =>
      refine hx.trans (x.trips_keeps r fun ht => ?_)
      obtain ⟨-, -, -, -, hq, -⟩ := ht.bounds
      omega
  · exact hx.trans (x.trips_keeps r fun _ => Nat.zero_le 7)

theorem Channel.pushRing_keeps (r : Nat) (c : Channel) {p : Nat} (hp : 1 ≤ p ∧ p ≤ 65535) :
    c.Keeps r { c with ring := pushRing c.tune.n p c.ring } := by
  refine ⟨rfl, fun _ ht hb => ⟨?_, fun hPer => ?_⟩⟩
  · have hLength := pushRing_length (n := c.tune.n) (p := p) (k := 8) (ring := c.ring)
    obtain ⟨-, -, -, hn, -⟩ := ht.bounds
    simp only [Channel.inBounds] at hb ⊢
    grind
  · obtain ⟨hRing, hPeriods, hRest⟩ := hPer
    exact ⟨fun hs => pushRing_length le_rfl (hRing hs), pushRing_bounds hp hPeriods, hRest⟩

theorem Channel.fed_keeps (r volts arough : Nat) (closing : Bool) (p : Nat) (c : Channel) (hs : c.mstate = .running) :
    c.Keeps r (c.fed volts arough closing p).1 := by
  unfold Channel.fed
  extract_lets x
  have hx : c.Keeps r x := c.pushRing_keeps r (correctedPeriod_bounds p volts)
  split
  · exact hx.trans (x.trips_keeps r fun _ => Nat.zero_le 7)
  · exact hx.trans (x.qualify_keeps r arough closing hs)

theorem Channel.detect_keeps (r volts arough : Nat) (closing : Bool) (p : Option Nat) (c : Channel) :
    c.Keeps r (c.detect volts arough closing p).1 := by
  unfold Channel.detect
  split
  · exact c.trips_keeps r fun _ => Nat.zero_le 7
  · next hs =>
    split
    · refine ⟨rfl, fun _ _ hb => ⟨?_, id⟩⟩
      simp only [Channel.inBounds, Config.maxSettle] at hb ⊢
      grind
    · split
      · exact c.trips_keeps r fun _ => Nat.zero_le 7
      · exact c.fed_keeps r volts arough closing _ (not_not.1 hs)

/-! ### Grants and follow-ons (R80, R93, R102) -/

theorem Channel.grantTimer_quiet (c : Channel) (now : Nat) (mode : Mode) : c.Quiet (c.grantTimer now mode) :=
  .of_eq rfl rfl rfl rfl rfl

theorem Channel.setOwner_quiet (c : Channel) (o : Owner) : c.Quiet (c.setOwner o) := .of_eq rfl rfl rfl rfl rfl

/-- A record that is new, or of which only other fields changed, keeps the ranges. -/
theorem Channel.motion_keeps (r : Nat) (c : Channel) {m : Motion}
    (h : r ≤ 3 → c.inBounds → m.runTime ≤ 20000 ∧ m.maxRough ≤ 3) : c.Keeps r { c with motion := some m } := by
  refine ⟨rfl, fun hr _ hb => ⟨?_, id⟩⟩
  have := h hr hb
  simp only [Channel.inBounds] at hb ⊢
  grind

theorem Channel.record_bounds (h : c.inBounds) {m : Motion} (hm : c.motion = some m) :
    m.runTime ≤ 20000 ∧ m.maxRough ≤ 3 := by
  unfold Channel.inBounds at h
  grind

theorem Channel.createMotion_keeps (r now level : Nat) (normal : Bool) (slot : Slot) (mode : Mode)
    (goal : Option Goal) (d : Dir) (c : Channel) (hl : level = r) :
    c.Keeps r (c.createMotion now level normal slot mode goal d) := by
  unfold Channel.createMotion
  refine .trans ?_ ((Channel.grantTimer_quiet _ _ _).keeps r)
  refine .trans ?_ ((Channel.setMState_quiet _ (by decide)).keeps r)
  refine .trans ?_ (Channel.zeroAccum_keeps r _)
  refine ((c.setOwner_quiet _).keeps r).trans (Channel.motion_keeps r _ fun hr _ => ⟨Nat.zero_le _, ?_⟩)
  exact hl ▸ hr

theorem Channel.zeroRun_keeps (r : Nat) (c : Channel) (now : Nat) : c.Keeps r (c.zeroRun now) := by
  have hRecord := c.mapMotion_keeps r (f := fun m => { m with runTime := 0 }) fun _ _ m _ hRough =>
    ⟨Nat.zero_le _, hRough⟩
  exact hRecord.trans (.of_eq rfl rfl rfl rfl rfl)

theorem Channel.replaceMotion_keeps (r now : Nat) (g : Grant) {m : Motion} (c : Channel) (hm : c.motion = some m) :
    c.Keeps r (c.replaceMotion now g m) := by
  unfold Channel.replaceMotion
  extract_lets held x y
  have hOwner : c.Keeps r x := ((c.supersede_quiet now g.slot).keeps r).trans ((Channel.setOwner_quiet _ _).keeps r)
  refine .trans ?_ ((Channel.grantTimer_quiet _ _ _).keeps r)
  refine .trans ?_ (Channel.zeroRun_keeps r _ _)
  refine hOwner.trans (x.motion_keeps r fun hr hb => ?_)
  have hx : x.motion = c.motion := by
    simp only [x, Channel.setOwner, Channel.supersede]
    repeat' split
    all_goals simp
  have hm' := Channel.record_bounds hb (hx.trans hm)
  exact ⟨hm'.1, hm'.2⟩

theorem Channel.replaceInFlight_keeps (r now : Nat) (g : Grant) {m : Motion} (c : Channel) (hm : c.motion = some m) :
    c.Keeps r (c.replaceInFlight now g m) := by
  unfold Channel.replaceInFlight
  dsimp only
  split
  · exact (c.replaceMotion_keeps r now g hm).trans (Channel.endMotion_keeps r _ _ _)
  · exact c.replaceMotion_keeps r now g hm

theorem Channel.setFollowOn_keeps (r now : Nat) (g : Grant) (d : Dir) (ended : Bool) (c : Channel) :
    c.Keeps r (c.setFollowOn now g d ended) := by
  unfold Channel.setFollowOn
  refine .trans ?_ ((Channel.grantTimer_quiet _ _ _).keeps r)
  refine .trans ?_ (Channel.mapMotion_keeps r _ fun _ _ m _ hRough => ⟨Nat.zero_le _, hRough⟩)
  exact ((c.supersede_quiet now g.slot).keeps r).trans ((Channel.setOwner_quiet _ _).keeps r)

theorem Channel.grant_keeps (r now level : Nat) (normal : Bool) (g : Grant) (c : Channel) (hl : level = r) :
    c.Keeps r (c.grant now level normal g) := by
  have hFlight (m : Motion) (hm : c.motion = some m) : c.Keeps r
      (if g.dir = none ∨ g.dir = some m.dir then c.replaceInFlight now g m
        else (c.enterBraking now ⟨.none, false⟩).setFollowOn now g (g.dir.getD m.dir) false) := by
    split
    · exact c.replaceInFlight_keeps r now g hm
    · exact (c.enterBraking_keeps r now _).trans (Channel.setFollowOn_keeps r now g _ _ _)
  unfold Channel.grant
  split
  · split
    · exact (c.grantTimer_quiet now .hold).keeps r
    · exact .refl r c
  · split
    · split
      · exact c.createMotion_keeps r now level normal _ _ _ _ hl
      · exact .refl r c
    · next hm => exact c.replaceMotion_keeps r now g hm
    · next hm => exact hFlight _ hm
    · next hm => exact hFlight _ hm
    · next hm => exact hFlight _ hm
    · split
      · exact c.setFollowOn_keeps r now g _ _
      · split
        · exact c.setFollowOn_keeps r now g _ _
        · exact .refl r c
      · exact .refl r c
    · exact .refl r c

theorem Channel.followRecord_keeps (r now level : Nat) (normal : Bool) (slot : Slot) (mode : Mode) (goal : Goal)
    (d : Dir) {m : Motion} (ended : Bool) (c : Channel) (hl : level = r) (hm : c.motion = some m) :
    c.Keeps r (c.followRecord now level normal slot mode goal d m ended) := by
  unfold Channel.followRecord
  split
  · refine .trans ?_ ((Channel.grantTimer_quiet _ _ _).keeps r)
    refine .trans ?_ (Channel.zeroAccum_keeps r _)
    refine (c.handEnd_keeps r).trans ?_
    refine (Channel.motion_keeps r c.handEnd (m := newMotion slot mode (some goal) d level normal) fun hr _ =>
      ⟨Nat.zero_le _, hl ▸ hr⟩).trans ?_
    exact .of_eq rfl rfl rfl rfl rfl
  · refine c.motion_keeps r fun _ hb => ?_
    have hm' := Channel.record_bounds hb hm
    exact ⟨hm'.1, hm'.2⟩

/-! ### The hold line (R104) -/

theorem Channel.pauseForHold_keeps (r : Nat) (c : Channel) (now : Nat) : c.Keeps r (c.pauseForHold now) := by
  have hFlag : c.Keeps r (c.mapMotion fun m => { m with holdFree := false }) :=
    .of_eq rfl rfl rfl rfl (Option.map_map ..)
  have hPause (x : Channel) (from_ : PausedFrom) : x.Keeps r
      ((({ (x.freezeRun now).mapMotion fun m => { m with pausedFrom := some from_ } with ramp := none }).setMState
        .paused).setBridge now .off 0) := by
    refine .trans ?_ ((Channel.setBridge_quiet _ _ _).keeps r)
    refine .trans ?_ ((Channel.setMState_quiet _ (by decide)).keeps r)
    exact (x.freezeRun_keeps r now).trans (.of_eq rfl rfl rfl rfl (Option.map_map ..))
  unfold Channel.pauseForHold
  dsimp only
  split
  · exact hFlag.trans (hPause _ _)
  · exact hFlag.trans (hPause _ _)
  · exact hFlag.trans (hPause _ _)
  · exact hFlag

end
end Sys2Proof.Machine
end

section
/-! PROOFS. What a command is made of: elementary changes of the part, each of one channel's numbers, of one list or of the
fields that no range speaks of. Every command but RESET and TUNE is a chain of them; an invariant that each of them keeps
holds after every such command. -/

namespace Sys2Proof.Machine

/-! ### Elementary changes -/

/-- An elementary change of the part. -/
inductive Act : State → State → Prop
  /-- One channel, its numbers within their ranges. -/
  | chan (s : State) (c : Chan) (x : Channel) (h : (s.ch c).Keeps s.roughness x) : Act s (s.setCh c x)
  /-- The clock, the timers, the start queue, the lines and the states of the part. -/
  | book {s t : State} (h : t = { s with
      clock := t.clock, quietTimer := t.quietTimer, statusTimer := t.statusTimer, startQueue := t.startQueue
      spacingTimer := t.spacingTimer, band := t.band, nextSample := t.nextSample, holdLine := t.holdLine
      holdSampled := t.holdSampled, holdLimitTimer := t.holdLimitTimer, limitExpired := t.limitExpired
      vehicleTimer := t.vehicleTimer, partState := t.partState, configTimer := t.configTimer }) : Act s t
  /-- A frame of the INCIDENT or ANSWER class is handed (R173). -/
  | hand (s : State) (f : Frame) (h : 2 ≤ f.tag.rank) : Act s (handFrame f s)
  /-- The STATUS of a channel is handed (R173). -/
  | status (s : State) (c : Chan) : Act s (handStatus c s)
  /-- The readout engine hands its next frame (R68). -/
  | readoutFrame (s : State) : Act s (handReadout s)
  /-- A snapshot is captured by an engine in IDLE (R67). -/
  | snapshot (s : State) (c : Chan) (h : s.readout = none) :
      Act s { s with readout := some ⟨snapshotOf c (s.ch c), 0⟩ }
  /-- The head of the queue is offered with no frame in transmission (R174). -/
  | offer (s : State) (e : TxEntry) (q : List TxEntry) (h : s.txQueue = e :: q) (hn : s.inTransmission = none) :
      Act s { s with txQueue := { e with onBus := some e.frame, renewed := false } :: q }
  /-- The frame in transmission leaves (R174). -/
  | leave (s : State) : Act s (txLeave s)
  /-- An attempt ends and the frames stay (R174). -/
  | lost (s : State) : Act s { s with txQueue := s.txQueue.map fun e => { e with onBus := none, renewed := false } }
  /-- The consecutive-error count (R175). -/
  | errors (s : State) (n : Nat) (h : n ≤ 15) : Act s { s with txErrors := n }
  /-- A reversal reports its outcome (R98). -/
  | outcome (s : State) (c : Chan) (o : ReversalOutcome) : Act s (reportOutcome c o s)
  /-- A record joins the incident list under the next identity (R153). -/
  | declared (s : State) (r : Incident) (hr : r.ref = s.nextRef) (hb : s.tuningInRange → s.inBounds → r.inBounds) :
      Act s { s with incidents := appendIncident r s.incidents, nextRef := s.nextRef + 1 }
  /-- The incident list is cleared (R157). -/
  | forget (s : State) : Act s { s with incidents := [] }
  /-- The urgent FIFO, within its capacity (R167). -/
  | urgent (s : State) (q : List StopRequest) (h : s.urgent.length ≤ 4 → q.length ≤ 4) : Act s { s with urgent := q }
  /-- The normal FIFO, within its capacity (R168). -/
  | normal (s : State) (q : List Request) (h : s.normal.length ≤ 8 → q.length ≤ 8) : Act s { s with normal := q }
  /-- The battery samples and their mean (R137). -/
  | sample (s : State) (l : List Nat) (v : Nat)
      (h : s.samples.length ≤ 4 → (∀ x ∈ s.samples, x ≤ 25575) →
        l.length ≤ 4 ∧ (∀ x ∈ l, x ≤ 25575) ∧ v ≤ 25575) : Act s { s with samples := l, volts := v }
  /-- The roughness level (R51). -/
  | rough (s : State) (n : Nat) (h : n ≤ 3) : Act s { s with roughness := n }
  /-- The staging buffer, with the entries of the segments received (R71). -/
  | stage (s : State) (l : Option Staging)
      (h : ∀ x ∈ l, ((∀ y ∈ s.staging, y.inBounds) → x.inBounds) ∧
        ((∀ y ∈ s.staging, ∀ p ∈ y.entries, p ≤ 65535) → ∀ p ∈ x.entries, p ≤ 65535)) :
      Act s { s with staging := l }
  /-- A staged table that is complete and fits is installed, and the buffer is freed (R75, R77). -/
  | install (s : State) (l : Staging) (h : s.staging = some l) (hc : l.expected = l.z / 2)
      (hf : l.fits (s.ch l.chan).tune = true) :
      Act s (({ s with staging := none }).modCh l.chan fun ch => { ch with zones := l.entries })
  /-- The clamps of a channel's tuning (R186). -/
  | clamp (s : State) (c : Chan) : Act s (s.modCh c fun ch => { ch with tune := ch.tune.clamped })

/-- A chain of elementary changes. -/
abbrev Acts : State → State → Prop := Relation.ReflTransGen Act

/-- A frame that leaves touches the transmit queue and the readout engine only (R69, R174). -/
theorem txLeave_eq (s : State) : txLeave s = { s with
    txQueue := (s.txQueue.filter fun e => e.onBus.isNone || e.renewed).map
      fun e => { e with onBus := none, renewed := false }
    readout := (txLeave s).readout } := by
  unfold txLeave
  dsimp only
  generalize (s.txQueue.filter fun e => e.onBus.isNone || e.renewed).map
    (fun e : TxEntry => { e with onBus := none, renewed := false }) = q
  split
  · obtain ⟨r, hr⟩ := readoutDeparted_eq { s with txQueue := q }
    rw [hr]
  · rfl

theorem Act.pending {s t : State} (h : Act s t) : t.pending = s.pending := by
  cases h with
  | book h => rw [h]
  | hand _ f => rw [handFrame_eq]
  | status c => rw [handStatus_eq]
  | readoutFrame => rw [handReadout_eq]
  | leave => rw [txLeave_eq]
  | outcome c o => rw [reportOutcome_eq]
  | _ => rfl

theorem Acts.pending {s t : State} (h : Acts s t) : t.pending = s.pending := by
  induction h with
  | refl => rfl
  | tail _ hAct ih => exact hAct.pending.trans ih

/-! ### The shared operations as chains -/

section
variable {s t u : State} {c : Chan}

theorem modCh_acts {f : Channel → Channel} (h : (s.ch c).Keeps s.roughness (f (s.ch c))) : Acts s (s.modCh c f) :=
  .single (.chan s c _ h)

theorem book_acts (h : t = { s with
      clock := t.clock, quietTimer := t.quietTimer, statusTimer := t.statusTimer, startQueue := t.startQueue
      spacingTimer := t.spacingTimer, band := t.band, nextSample := t.nextSample, holdLine := t.holdLine
      holdSampled := t.holdSampled, holdLimitTimer := t.holdLimitTimer, limitExpired := t.limitExpired
      vehicleTimer := t.vehicleTimer, partState := t.partState, configTimer := t.configTimer }) : Acts s t :=
  .single (.book h)

theorem forChans_acts {f : Chan → State → State} (h : ∀ c s, Acts s (f c s)) (s : State) : Acts s (forChans f s) :=
  forChans_induct (Acts s) .refl fun c u hu => hu.trans (h c u)

theorem flush_acts (s : State) : Acts s (flush s) := by
  rw [flush_eq_flushOne]
  refine forChans_acts (fun c s => ?_) s
  unfold flushOne
  split
  · exact (modCh_acts (.of_eq rfl rfl rfl rfl rfl)).tail (.status _ c)
  · exact .refl

/-- The numbers of the record that an incident gives (R47, R152, R159). -/
theorem incidentOf_inBounds {cause : IncidentCause} {force : Option (Nat × Nat)}
    (ht : (s.ch c).tune.inRange) (hp : Config.posMin ≤ (s.ch c).position ∧ (s.ch c).position ≤ Config.posMax)
    (hv : s.volts ≤ 25575) (hr : s.roughness ≤ 3) (hf : ∀ x ∈ force, x.1 ≤ 1023 ∧ 1 ≤ x.2 ∧ x.2 ≤ 1023) :
    (incidentOf s c cause force).inBounds := by
  have hZone : zoneOf (s.ch c).tune (s.ch c).position ≤ 63 := by
    obtain ⟨-, -, hz, -⟩ := ht.bounds
    have := zoneOf_lt (t := (s.ch c).tune) (p := (s.ch c).position) (by omega)
    omega
  have hStrikes : 1 ≤ min Config.maxStrikes ((s.ch c).strikes + 1) ∧
      min Config.maxStrikes ((s.ch c).strikes + 1) ≤ 3 := by
    unfold Config.maxStrikes; omega
  exact ⟨hp.1, hp.2, hZone, hv, hr, hStrikes.1, hStrikes.2, hf, by simp [incidentOf]⟩

theorem State.tuningInRange.tune (h : s.tuningInRange) (c : Chan) : (s.ch c).tune.inRange :=
  fun n hn r hr => (h n hn).1 c (Chan.mem_all c) r hr

theorem declareIncident_acts (c : Chan) (cause : IncidentCause) {force : Option (Nat × Nat)} (s : State)
    (hf : force = none ∨ force = some ((s.ch c).lastF, (s.ch c).lastT)) :
    Acts s (declareIncident c cause force s) := by
  unfold declareIncident
  extract_lets r s1 s2 s3
  have hRaised : Acts s s1 := by
    refine modCh_acts (.trans ?_ (Channel.setStrikes_keeps _ _ (Nat.min_le_left ..)))
    exact .of_eq rfl rfl rfl rfl rfl
  have hDeclared : Acts s s2 := by
    refine hRaised.tail (.declared s1 r rfl fun ht hb => ?_)
    obtain ⟨hCh, -, -, -, -, -, -, hVolts, -, hRough, -⟩ := hb
    have hTune := ht.tune c
    have hCh := hCh c (Chan.mem_all c)
    rw [State.ch_modCh_self] at hTune hCh
    obtain ⟨hMin, hMax, -, -, -, -, -, -, hF, hT, hT', -⟩ := hCh
    refine incidentOf_inBounds hTune ⟨hMin, hMax⟩ hVolts hRough fun x hx => ?_
    obtain rfl | rfl := hf
    · cases hx
    · obtain rfl := Option.some.inj hx
      exact ⟨hF, hT, hT'⟩
  have hRank : 2 ≤ (incidentFrame s2.globals r).tag.rank := Nat.le_succ 2
  exact (hDeclared.tail (.hand s2 _ hRank)).trans (modCh_acts (Channel.takeIncident_keeps _ _ _ _ _))

theorem judgeStrip_acts (c : Chan) (s : State) : Acts s (judgeStrip c s) := by
  unfold judgeStrip
  split
  · exact declareIncident_acts c _ s (.inl rfl)
  · exact .refl

theorem leaveQueue_acts (c : Chan) (x : StopCause) (s : State) : Acts s (leaveQueue c x s) := by
  unfold leaveQueue
  exact (book_acts rfl).trans (modCh_acts (Channel.dropMotion_keeps _ _ _ _))

theorem endReversal_acts (c : Chan) (x : Option StopCause) (o : ReversalOutcome) (s : State) :
    Acts s (endReversal c x o s) := by
  unfold endReversal
  refine Relation.ReflTransGen.trans (.single (.outcome s c o)) (modCh_acts ?_)
  refine .trans ?_ (Channel.enterBraking_keeps _ _ _ _)
  exact .of_eq rfl rfl rfl rfl rfl

theorem cancelFollowOn_acts (c : Chan) (x : StopCause) (s : State) : Acts s (s.modCh c (·.cancelFollowOn s.clock x)) :=
  modCh_acts ((Channel.cancelFollowOn_quiet _ _ _).keeps _)

theorem endMotion_acts (c : Chan) (x : StopCause) (s : State) : Acts s (s.modCh c (·.endMotion s.clock x)) :=
  modCh_acts (Channel.endMotion_keeps _ _ _ _)

theorem stopRequest_acts (c : Chan) (x : StopCause) (s : State) : Acts s (stopRequest c x s) := by
  unfold stopRequest
  dsimp only
  split
  · exact .refl
  · exact leaveQueue_acts c x s
  · exact endMotion_acts c x s
  · exact endMotion_acts c x s
  · split
    · exact endReversal_acts c _ _ s
    · exact .refl
  · split
    · split
      · exact endReversal_acts c _ _ s
      · exact .refl
    · split
      · exact endReversal_acts c _ _ s
      · exact .refl
    · exact endMotion_acts c x s
  · split
    · split
      · exact Relation.ReflTransGen.trans (.single (.outcome s c _)) (modCh_acts ((Channel.cancelFollowOn_quiet _ _ _).keeps _))
      · exact .refl
    · exact cancelFollowOn_acts c x s
    · exact .refl

theorem countFaults_acts (c : Chan) (a b d : Bool) (s : State) : Acts s (countFaults c a b d s) := by
  unfold countFaults
  dsimp only
  have hCount (a b d : Bool) (s : State) (m : CounterMode) (th : Nat) : Acts s (s.modCh c fun ch => { ch with
      stepFaults := (countFault m th a (s.ch c).stepFaults).1
      reverseFaults := (countFault m th b (s.ch c).reverseFaults).1
      speedFaults := (countFault m th d (s.ch c).speedFaults).1 }) := by
    refine modCh_acts (Channel.counters_keeps _ _ fun hb => ?_)
    obtain ⟨-, -, hStep, hRev, hSpeed, -⟩ := hb
    exact ⟨countFault_le m th a hStep, countFault_le m th b hRev, countFault_le m th d hSpeed⟩
  split
  · refine ((hCount a b d s _ _).trans (modCh_acts ?_)).trans (stopRequest_acts c _ _)
    exact ((Channel.setSummary_quiet _ _).trans (Channel.setDatum_quiet _ _)).keeps _
  · exact hCount a b d s _ _

theorem checkOvertravel_acts (c : Chan) (s : State) : Acts s (checkOvertravel c s) := by
  unfold checkOvertravel
  dsimp only
  split
  · exact (modCh_acts ((Channel.setDatum_quiet _ _).keeps _)).trans (stopRequest_acts c _ _)
  · exact .refl

theorem driveEdge_acts (c : Chan) (s : State) : Acts s (driveEdge c s) := by
  unfold driveEdge
  dsimp only
  split
  iterate 2
    · split
      · exact endMotion_acts c _ s
      · exact modCh_acts (Channel.refreshDuty_keeps _ _)
  · split
    · split
      · split
        · exact endReversal_acts c _ _ s
        · exact .refl
      · exact .refl
    · exact .refl
  · exact .refl

theorem detectEdge_acts (c : Chan) (k : Bool) (p : Option Nat) (s : State) : Acts s (detectEdge c k p s) := by
  unfold detectEdge
  extract_lets x s1
  have hDetect : Acts s s1 := .single (.chan s c x.1 (Channel.detect_keeps _ _ _ _ _ _))
  split
  · refine hDetect.trans (declareIncident_acts c _ _ (.inr ?_))
    simp [s1]
  · exact hDetect

theorem edgeReport_acts (c : Chan) (k : Bool) (p : Option Nat) (s : State) : Acts s (edgeReport c k p s) := by
  unfold edgeReport
  exact (((modCh_acts ((Channel.restartStall_quiet _ _).keeps _)).trans (judgeStrip_acts c _)).trans
    (detectEdge_acts c _ _ _)).trans (driveEdge_acts c _)

theorem countEdge_acts (c : Chan) (d : Dir) (s : State) : Acts s (countEdge c d s) := by
  unfold countEdge
  dsimp only
  refine (((modCh_acts ?_).trans (countFaults_acts c _ _ _ _)).trans (checkOvertravel_acts c _)).trans
    (edgeReport_acts c _ _ _)
  refine (Channel.position_keeps _ _ fun _ hb => stepPosition_bounds ?_ d).trans (.of_eq rfl rfl rfl rfl rfl)
  obtain ⟨hMin, hMax, -⟩ := hb
  exact ⟨hMin, hMax⟩

theorem hallPair_acts (c : Chan) (a b a' b' : Bool) (s : State) : Acts s (hallPair c a b a' b' s) := by
  unfold hallPair
  dsimp only
  split
  · exact countFaults_acts c _ _ _ s
  · split
    · exact .refl
    · split
      · exact countEdge_acts c _ s
      · exact .refl
theorem sampleHall_acts (c : Chan) (a b : Bool) (n : Nat) (s : State) : Acts s (sampleHall c a b n s) := by
  unfold sampleHall
  extract_lets ch t0 fa fb rest
  have hRest (t : Nat) : Acts s (rest t) := .trans (book_acts rfl) (modCh_acts (.of_eq rfl rfl rfl rfl rfl))
  split
  · exact hRest _
  · split
    · exact hRest _
    · refine .trans (.trans (book_acts rfl) (modCh_acts ?_)) (hallPair_acts c _ _ _ _ _)
      exact .of_eq rfl rfl rfl rfl rfl

theorem sampleStrip_acts (c : Chan) (level : Bool) (n : Nat) (s : State) : Acts s (sampleStrip c level n s) := by
  unfold sampleStrip
  extract_lets ch x s1
  have hSampled : Acts s s1 := .trans (book_acts rfl) (modCh_acts (.of_eq rfl rfl rfl rfl rfl))
  split
  · exact hSampled.trans (judgeStrip_acts c s1)
  · exact hSampled

theorem stall_acts (c : Chan) (s : State) : Acts s (stall c s) := by
  have hEnd {x : Channel → Channel} (k : StopCause) (h : (s.ch c).Keeps s.roughness (x (s.ch c))) :
      Acts s (s.modCh c fun ch => (x ch).endMotion s.clock k) := modCh_acts (h.trans (Channel.endMotion_keeps _ _ _ _))
  unfold stall
  dsimp only
  split
  · exact hEnd _ (Channel.datumFound_keeps _ _ fun ht => ht.referencePosition)
  · exact endReversal_acts c _ _ s
  · exact hEnd _ (Channel.datumFound_keeps _ _ fun _ => by decide)
  · exact declareIncident_acts c _ s (.inl rfl)
  · exact endMotion_acts c _ s

/-! ### Starts, reversals, grants and brakes -/

theorem admitHead_acts (c : Chan) (s : State) : Acts s (admitHead c s) := by
  unfold admitHead
  extract_lets s1 ch
  have hDir : Acts s s1 := by
    refine modCh_acts ?_
    split
    · exact (Channel.setDir_quiet _ _).keeps _
    · exact .refl _ _
  refine hDir.trans ?_
  split
  · exact modCh_acts (Channel.dropMotion_keeps _ _ _ _)
  · next m _ hMotion =>
    refine .trans (.trans (modCh_acts ?_) (book_acts rfl)) (judgeStrip_acts c _)
    exact Channel.enterStarting_keeps _ _ _ _ _ rfl hMotion
  · exact .refl

theorem enterReversing_acts (c : Chan) (s : State) : Acts s (enterReversing c s) := by
  unfold enterReversing
  extract_lets s1 ch
  have hEntry : Acts s s1 := by
    refine modCh_acts (.trans ?_ ((Channel.setMState_quiet _ (by decide)).keeps _))
    have hRecord := (s.ch c).mapMotion_keeps s.roughness
      (f := fun m => { m with braking := none, pausedFrom := none, runTime := 0 }) fun _ _ m _ hRough =>
        ⟨Nat.zero_le _, hRough⟩
    exact hRecord.trans (.of_eq rfl rfl rfl rfl rfl)
  refine hEntry.trans ?_
  split
  · exact .refl
  · extract_lets reached
    split
    · exact endReversal_acts c _ _ s1
    · refine modCh_acts (.trans ?_ (Channel.setBridge_keeps _ _ _ _ fun ht _ => Channel.chosenDuty_le ht false))
      refine Channel.newRecord_keeps _ rfl rfl rfl rfl (fun ht _ => Channel.chosenDuty_le ht _) fun _ hb => ?_
      exact fun m hm => Channel.record_bounds hb hm

theorem formReversal_acts (c : Chan) (s : State) : Acts s (formReversal c s) := by
  have hIdle (o : ReversalOutcome) : Acts s ((reportOutcome c o s).modCh c (·.enterIdle s.clock)) :=
    Relation.ReflTransGen.trans (.single (.outcome s c o)) (modCh_acts (Channel.enterIdle_keeps _ _ _))
  unfold formReversal
  extract_lets ch d t beyond s1
  split
  · exact hIdle _
  · split
    · have hFormed : Acts s s1 := modCh_acts (.of_eq rfl rfl rfl rfl (Option.map_map ..))
      split
      · exact hFormed.trans (modCh_acts ((Channel.pauseAfterBrake_quiet _ _ _).keeps _))
      · exact hFormed.trans (enterReversing_acts c s1)
    · exact hIdle _

theorem grantTo_acts (c : Chan) (g : Grant) (s : State) : Acts s (grantTo c g s) := by
  unfold grantTo
  extract_lets before s1 s2
  have hGrant : Acts s s1 := modCh_acts (Channel.grant_keeps _ _ _ _ _ _ rfl)
  have hQueue : Acts s s2 := by
    unfold s2
    split
    · exact hGrant.trans (book_acts rfl)
    · exact hGrant
  split
  · exact hQueue.trans (judgeStrip_acts c s2)
  · exact hQueue

theorem followMotion_acts (c : Chan) (slot : Slot) (mode : Mode) (goal : Goal) (d : Dir) {m : Motion} (ended : Bool)
    (s : State) (hm : (s.ch c).motion = some m) : Acts s (followMotion c slot mode goal d m ended s) := by
  unfold followMotion
  extract_lets s1 s2
  have hRecord : Acts s s1 :=
    modCh_acts ((Channel.followRecord_keeps _ _ _ _ _ _ _ _ _ _ rfl hm).trans
      ((Channel.confirmOwner_quiet _ _).keeps _))
  refine hRecord.trans ?_
  split
  · split
    · exact modCh_acts (Channel.dropMotion_keeps _ _ _ _)
    · exact modCh_acts ((Channel.pauseAfterBrake_quiet _ _ _).keeps _)
  · refine .trans (modCh_acts ?_) (book_acts rfl)
    refine .trans ?_ ((Channel.setBridge_quiet _ _ _).keeps _)
    refine .trans ?_ ((Channel.setMState_quiet _ (by decide)).keeps _)
    exact .of_eq rfl rfl rfl rfl rfl

theorem endBrake_acts (c : Chan) (s : State) : Acts s (endBrake c s) := by
  unfold endBrake
  split
  · exact .refl
  · next m hMotion =>
    split
    · exact formReversal_acts c s
    · exact followMotion_acts c _ _ _ _ _ s hMotion
    · exact modCh_acts (Channel.enterIdle_keeps _ _ _)

/-! ### The hold line, the supply and the roughness -/

theorem assertHold_acts (s : State) : Acts s (assertHold s) := by
  unfold assertHold
  exact .trans (book_acts rfl) (forChans_acts (fun c s => modCh_acts (Channel.pauseForHold_keeps _ _ _)) _)

theorem releaseHold_acts (s : State) : Acts s (releaseHold s) := by
  unfold releaseHold
  extract_lets resumes back s1 s2
  have hTurns : Acts s s2 := by
    refine .trans (book_acts rfl) (forChans_acts (fun c s => ?_) s1)
    split
    · exact enterReversing_acts c s
    · split
      · split
        · exact modCh_acts ((Channel.resume_quiet _).keeps _)
        · exact modCh_acts (Channel.dropMotion_keeps _ _ _ _)
      · exact .refl
  clear_value s2
  exact hTurns.trans (book_acts rfl)

theorem expireHoldLimit_acts (s : State) : Acts s (expireHoldLimit s) := by
  unfold expireHoldLimit
  refine .trans (book_acts rfl) (forChans_acts (fun c s => ?_) _)
  split
  · exact modCh_acts (Channel.dropMotion_keeps _ _ _ _)
  · split
    · exact leaveQueue_acts c _ s
    · exact .refl

theorem sampleHold_acts (level : Bool) (n : Nat) (s : State) : Acts s (sampleHold level n s) := by
  unfold sampleHold
  extract_lets x s1
  have hSampled : Acts s s1 := book_acts rfl
  split
  · split
    · exact hSampled.trans (assertHold_acts s1)
    · exact hSampled.trans (releaseHold_acts s1)
  · exact hSampled

theorem bandStops_acts (b : Band) (s : State) : Acts s (bandStops b s) := by
  unfold bandStops
  refine forChans_acts (fun c s => ?_) s
  extract_lets stops
  clear_value stops
  split
  · exact stopRequest_acts c _ s
  · exact .refl

theorem changeBand_acts (b : Band) (s : State) : Acts s (changeBand b s) := by
  unfold changeBand
  split
  · exact .refl
  · refine .trans (.trans (book_acts rfl) (forChans_acts (fun c s => modCh_acts ?_) _)) (bandStops_acts b _)
    exact .of_eq rfl rfl rfl rfl (Option.map_map ..)

/-- The mean of voltages in range is in range. -/
theorem mean_le {l : List Nat} {b : Nat} (h : ∀ x ∈ l, x ≤ b) : l.sum / l.length ≤ b :=
  Nat.div_le_of_le_mul (List.sum_le_card_nsmul l b h)

theorem takeSample_acts {code : Nat} (hc : code ≤ 1023) (s : State) : Acts s (takeSample code s) := by
  unfold takeSample
  extract_lets l k v
  refine .trans (.single (.sample s k v fun hLength hVolts => ?_)) (changeBand_acts _ _)
  have hl : ∀ x ∈ l, x ≤ 25575 := by
    intro x hx
    obtain hx | hx := List.mem_append.1 hx
    · exact hVolts x hx
    · obtain rfl := List.mem_singleton.1 hx
      unfold Config.mvPerCode
      omega
  have hk : ∀ x ∈ k, x ≤ 25575 := by
    intro x hx
    unfold k at hx
    split at hx
    · exact hl x (List.mem_of_mem_drop hx)
    · exact hl x hx
  refine ⟨?_, hk, mean_le hk⟩
  unfold k Config.maxSamples
  split
  · simp [l]; omega
  · omega

theorem setRoughness_acts {n : Nat} (hn : n ≤ 3) (s : State) : Acts s (setRoughness n s) := by
  unfold setRoughness
  split
  · exact .refl
  · refine .trans (.single (.rough s n hn)) (forChans_acts (fun c s => modCh_acts ?_) _)
    refine Channel.mapMotion_keeps _ _ fun _ _ m hRun hRough => ?_
    split
    · exact ⟨hRun, max_le hRough hn⟩
    · exact ⟨hRun, hRough⟩

/-! ### Requests -/

theorem handFrame_acts {f : Frame} (h : 2 ≤ f.tag.rank) (s : State) : Acts s (handFrame f s) := .single (.hand s f h)

/-- What a request sends is of the ANSWER class. -/
def Sends.ofAnswerClass : Sends → Prop
  | .frames fs => ∀ f ∈ fs, f.tag.rank = 2
  | _ => True

theorem conclude_acts (slot : Slot) (kind : Nat) {x : State × Sends} (h : Acts s x.1) (hs : x.2.ofAnswerClass) :
    Acts s (conclude slot kind x) := by
  unfold conclude
  have hFlush : Acts s (flush x.1) := h.trans (flush_acts x.1)
  dsimp only
  split
  · exact hFlush
  · exact hFlush.trans (handFrame_acts le_rfl _)
  · next fs hSends =>
    rw [hSends] at hs
    clear hSends
    generalize flush x.1 = u at hFlush
    induction fs generalizing u with
    | nil => exact hFlush
    | cons f fs ih =>
      exact ih (fun g hg => hs g (List.mem_cons_of_mem f hg)) _
        (hFlush.trans (handFrame_acts (hs f List.mem_cons_self).ge u))

theorem touchConfig_acts (k : RequestKind) (s : State) : Acts s (touchConfig k s) := by
  unfold touchConfig
  split
  · exact book_acts rfl
  · exact .refl

theorem serve_acts {k : RequestKind} {h : Slot → List Byte → State → State × Sends}
    (hh : ∀ slot d s, Acts s (h slot d s).1 ∧ (h slot d s).2.ofAnswerClass) (s : State) : Acts s (serve k h s) := by
  unfold serve
  split
  · next r rest hUrgent hNormal =>
    split
    · have hTaken : Acts s { s with normal := rest } :=
        .single (.normal s rest fun hl => by rw [hNormal] at hl; exact Nat.le_of_succ_le hl)
      unfold screened
      split
      · exact conclude_acts _ _ hTaken trivial
      · split
        · exact conclude_acts _ _ hTaken trivial
        · obtain ⟨hActs, hSends⟩ := hh r.slot r.data (touchConfig k { s with normal := rest })
          exact conclude_acts _ _ ((hTaken.trans (touchConfig_acts _ _)).trans hActs) hSends
    · exact .refl
  · exact .refl

end
end Sys2Proof.Machine
end

section
/-! PROOFS. Each command but RESET and TUNE as a chain of elementary changes. -/

namespace Sys2Proof.Machine

/-! ### The requests of the ownership unit -/

theorem arbitrate_acts (c : Chan) (g : Grant) (clamped : Bool) (s : State) : Acts s (arbitrate c g clamped s).1 := by
  unfold arbitrate
  split
  · exact grantTo_acts c g s
  · split
    · exact modCh_acts ((Channel.grantTimer_quiet _ _ _).keeps _)
    · split
      · exact grantTo_acts c g s
      · exact .refl

theorem decideMove_acts (c : Chan) (g : Grant) (clamped : Bool) (s : State) : Acts s (decideMove c g clamped s).1 := by
  unfold decideMove
  split
  · exact .refl
  · exact arbitrate_acts c g clamped s

theorem moveChannel_acts (c : Chan) (slot : Slot) (mode : Mode) (k : GoalKind) (x : Int) (s : State) :
    Acts s (moveChannel c slot mode k x s).1 := by
  unfold moveChannel
  split
  · exact .refl
  · extract_lets g
    split
    · exact modCh_acts (.of_eq rfl rfl rfl rfl rfl)
    · exact .trans (modCh_acts (.of_eq rfl rfl rfl rfl rfl)) (decideMove_acts c g _ _)

theorem handleMove_acts (slot : Slot) (d : List Byte) (s : State) :
    Acts s (handleMove slot d s).1 ∧ (handleMove slot d s).2.ofAnswerClass := by
  unfold handleMove
  split
  · exact ⟨.refl, trivial⟩
  · split
    · next c mode k _ _ _ =>
      have hActs := moveChannel_acts c slot mode k (signedAt d 4) s
      split <;> next hx => exact ⟨by rw [hx] at hActs; exact hActs, trivial⟩
    · exact ⟨.refl, trivial⟩

theorem groupChannel_acts (c : Chan) (slot : Slot) (e : GoalEnd) (s : State) : Acts s (groupChannel c slot e s).1 := by
  unfold groupChannel
  split
  · exact .refl
  · exact decideMove_acts c _ _ s

theorem groupChannels_acts (slot : Slot) (e : GoalEnd) (mask : Nat) (l : List Chan) (s : State) :
    Acts s (groupChannels slot e mask l s).1 := by
  induction l generalizing s with
  | nil => exact .refl
  | cons c cs ih =>
    unfold groupChannels
    split
    · exact (groupChannel_acts c slot e s).trans (ih _)
    · exact ih s

theorem handleGroup_acts (slot : Slot) (d : List Byte) (s : State) :
    Acts s (handleGroup slot d s).1 ∧ (handleGroup slot d s).2.ofAnswerClass := by
  unfold handleGroup
  dsimp only
  split
  · exact ⟨.refl, trivial⟩
  · split
    · exact ⟨.refl, trivial⟩
    · exact ⟨groupChannels_acts slot _ _ _ s, trivial⟩

theorem stopMask_acts (mask : Nat) (s : State) : Acts s (stopMask mask s) := by
  unfold stopMask
  refine forChans_acts (fun c s => ?_) s
  split
  · exact stopRequest_acts c _ s
  · exact .refl

theorem handleReference_acts (slot : Slot) (d : List Byte) (s : State) :
    Acts s (handleReference slot d s).1 ∧ (handleReference slot d s).2.ofAnswerClass := by
  unfold handleReference
  dsimp only
  split
  · exact ⟨.refl, trivial⟩
  · split
    · exact ⟨.refl, trivial⟩
    · split
      · exact ⟨.refl, trivial⟩
      · split
        · exact ⟨.refl, trivial⟩
        · split
          · exact ⟨.refl, trivial⟩
          · split
            · exact ⟨.refl, trivial⟩
            · exact ⟨.trans (modCh_acts (Channel.createMotion_keeps _ _ _ _ _ _ _ _ _ rfl)) (book_acts rfl), trivial⟩

theorem lockChannel_acts (slots : Nat) (c : Chan) (s : State) : Acts s (lockChannel slots c s) := by
  unfold lockChannel
  extract_lets stops s1
  have hLocked : Acts s s1 := modCh_acts (.of_eq rfl rfl rfl rfl rfl)
  split
  · exact hLocked.trans (stopRequest_acts c _ s1)
  · exact hLocked

theorem handleLockout_acts (slot : Slot) (d : List Byte) (s : State) :
    Acts s (handleLockout slot d s).1 ∧ (handleLockout slot d s).2.ofAnswerClass := by
  have hAct {f : Nat → Chan → State → State} (hf : ∀ n c s, Acts s (f n c s)) :
      Acts s (forChans (fun c s => if inMask (byteAt d 1) c then f (byteAt d 2) c s else s) s) := by
    refine forChans_acts (fun c s => ?_) s
    split
    · exact hf _ c s
    · exact .refl
  unfold handleLockout
  dsimp only
  split
  · exact ⟨hAct lockChannel_acts, trivial⟩
  · exact ⟨hAct fun _ _ _ => modCh_acts (.of_eq rfl rfl rfl rfl rfl), trivial⟩
  · exact ⟨.refl, trivial⟩

theorem handleQuery_acts (slot : Slot) (d : List Byte) (s : State) :
    Acts s (handleQuery slot d s).1 ∧ (handleQuery slot d s).2.ofAnswerClass := by
  unfold handleQuery
  split
  · exact ⟨.refl, trivial⟩
  · refine ⟨?_, trivial⟩
    dsimp only
    exact modCh_acts (.of_eq rfl rfl rfl rfl rfl)

/-! ### The requests of the profile store -/

theorem handleProfileRead_acts (slot : Slot) (d : List Byte) (s : State) :
    Acts s (handleProfileRead slot d s).1 ∧ (handleProfileRead slot d s).2.ofAnswerClass := by
  unfold handleProfileRead
  dsimp only
  split
  · exact ⟨.refl, trivial⟩
  · exact ⟨.refl, trivial⟩
  · next c _ hIdle => exact ⟨.tail (.single (.snapshot s c hIdle)) (.readoutFrame _), trivial⟩

/-- A restore frame taken in RUN is answered STATE. -/
theorem restoring_acts {act : State × Sends} {s : State} (t : List Nat) (h : Acts s act.1 ∧ act.2.ofAnswerClass) :
    Acts s (restoring t act s).1 ∧ (restoring t act s).2.ofAnswerClass := by
  unfold restoring
  split
  · exact ⟨.refl, trivial⟩
  · exact h

theorem freeStaging_acts (s : State) : Acts s { s with staging := none } := .single (.stage s none (by simp))

theorem handleRestoreBegin_acts (slot : Slot) (d : List Byte) (s : State) :
    Acts s (handleRestoreBegin slot d s).1 ∧ (handleRestoreBegin slot d s).2.ofAnswerClass := by
  unfold handleRestoreBegin
  refine restoring_acts _ ?_
  split
  · exact ⟨.refl, trivial⟩
  · split
    · exact ⟨.refl, trivial⟩
    · split
      · exact ⟨.refl, trivial⟩
      · refine ⟨.single (.stage s _ fun x hx => ?_), trivial⟩
        obtain rfl := Option.some.inj hx
        exact ⟨fun _ => ⟨rfl, Nat.zero_le _⟩, fun _ => by simp⟩

theorem wordAt_lt (d : List Byte) (i : Nat) : wordAt d i ≤ 65535 := by
  have hHigh : byteAt d i < 256 := (d.getD i 0#8).isLt
  have hLow : byteAt d (i + 1) < 256 := (d.getD (i + 1) 0#8).isLt
  unfold wordAt
  omega

theorem handleRestoreData_acts (slot : Slot) (d : List Byte) (s : State) :
    Acts s (handleRestoreData slot d s).1 ∧ (handleRestoreData slot d s).2.ofAnswerClass := by
  unfold handleRestoreData
  refine restoring_acts _ ?_
  split
  · exact ⟨.refl, trivial⟩
  · next l hLoad =>
    split
    · exact ⟨.refl, trivial⟩
    · split
      · next hNext =>
        refine ⟨.single (.stage s _ fun x hx => ?_), trivial⟩
        obtain rfl := Option.some.inj hx
        refine ⟨fun h => ?_, fun h p hp => ?_⟩
        · obtain ⟨hLength, hExpected⟩ := h l hLoad
          refine ⟨?_, hNext.2.2⟩
          simp [Staging.store, hLength]
          omega
        · obtain hp | hp := List.mem_append.1 hp
          · exact h l hLoad p hp
          · obtain rfl | hp := List.mem_cons.1 hp
            · exact wordAt_lt d 3
            · obtain rfl := List.mem_singleton.1 hp
              exact wordAt_lt d 5
      · exact ⟨freeStaging_acts s, trivial⟩

theorem takesPosition_bounds {c : Channel} {p : Int} (ht : c.tune.inRange) (h : c.takesPosition p = true) :
    Config.posMin ≤ p ∧ p ≤ Config.posMax := by
  obtain ⟨hLo, hLt, -⟩ := ht.bounds
  have hUsed := c.tune.ltUsed_le
  simp only [Channel.takesPosition, Bool.and_eq_true, decide_eq_true_eq] at h
  unfold Config.posMin Config.posMax
  omega

theorem installLoad_acts {l : Staging} {s : State} (p : Int) (flag : Bool) (h : s.staging = some l)
    (hc : l.expected = l.z / 2) (hf : l.fits (s.ch l.chan).tune = true) :
    Acts s (installLoad l p flag { s with staging := none }).1 := by
  unfold installLoad
  extract_lets s1
  have hInstalled : Acts s s1 := .single (.install s l h hc hf)
  split
  · next hTakes =>
    dsimp only
    refine hInstalled.trans (modCh_acts (.trans ?_ ((Channel.setDatum_quiet _ _).keeps _)))
    refine Channel.position_keeps _ _ fun ht _ => takesPosition_bounds ht ?_
    exact (Bool.and_eq_true_iff.1 hTakes).2
  · exact hInstalled

theorem handleRestoreEnd_acts (slot : Slot) (d : List Byte) (s : State) :
    Acts s (handleRestoreEnd slot d s).1 ∧ (handleRestoreEnd slot d s).2.ofAnswerClass := by
  unfold handleRestoreEnd
  refine restoring_acts _ ?_
  split
  · exact ⟨.refl, trivial⟩
  · next l hLoad =>
    dsimp only
    split
    · exact ⟨.refl, trivial⟩
    · split
      · exact ⟨freeStaging_acts s, trivial⟩
      · next hComplete =>
        split
        · exact ⟨freeStaging_acts s, trivial⟩
        · next hFits =>
          split
          · exact ⟨freeStaging_acts s, trivial⟩
          · exact ⟨installLoad_acts _ _ hLoad (not_not.1 hComplete) (by simpa using hFits), trivial⟩

/-! ### The requests of the other blocks -/

theorem handleVehicle_acts (slot : Slot) (d : List Byte) (s : State) :
    Acts s (handleVehicle slot d s).1 ∧ (handleVehicle slot d s).2.ofAnswerClass :=
  ⟨.trans (book_acts rfl) (setRoughness_acts (Nat.min_le_right ..) _), trivial⟩

theorem handleIncidentRead_acts (slot : Slot) (d : List Byte) (s : State) :
    Acts s (handleIncidentRead slot d s).1 ∧ (handleIncidentRead slot d s).2.ofAnswerClass := by
  unfold handleIncidentRead
  dsimp only
  split
  · refine ⟨.refl, ?_⟩
    intro f hf
    simp only [List.mem_cons, List.not_mem_nil, or_false] at hf
    obtain rfl | rfl := hf <;> rfl
  · exact ⟨.refl, trivial⟩

theorem masked_acts (mask : Nat) {f : Channel → Channel} (hf : ∀ r c, Channel.Keeps r c (f c)) (s : State) :
    Acts s (forChans (fun c s => if inMask mask c then s.modCh c f else s) s) := by
  refine forChans_acts (fun c s => ?_) s
  split
  · exact modCh_acts (hf _ _)
  · exact .refl

theorem handleClear_acts (slot : Slot) (d : List Byte) (s : State) :
    Acts s (handleClear slot d s).1 ∧ (handleClear slot d s).2.ofAnswerClass := by
  unfold handleClear
  extract_lets sel masked s1 s2 s3
  refine ⟨?_, trivial⟩
  have h1 : Acts s s1 := by
    unfold s1; split
    · exact masked_acts _ Channel.clearFaults_keeps s
    · exact .refl
  have h2 : Acts s s2 := by
    unfold s2; split
    · exact h1.trans (masked_acts _ Channel.clearStrikes_keeps s1)
    · exact h1
  change Acts s s3
  unfold s3; split
  · exact h2.tail (.forget s2)
  · exact h2

theorem handleConfig_acts (slot : Slot) (d : List Byte) (s : State) :
    Acts s (handleConfig slot d s).1 ∧ (handleConfig slot d s).2.ofAnswerClass := by
  unfold handleConfig
  split
  · exact ⟨.refl, trivial⟩
  · split
    · exact ⟨book_acts rfl, trivial⟩
    · exact ⟨.refl, trivial⟩

theorem leaveConfig_acts (s : State) : Acts s (leaveConfig s) := by
  unfold leaveConfig
  extract_lets s1
  have hClamped : Acts s s1 :=
    (freeStaging_acts s).trans (forChans_acts (fun c s => .single (.clamp s c)) _)
  clear_value s1
  exact hClamped.trans (book_acts rfl)

theorem handleStart_acts (slot : Slot) (d : List Byte) (s : State) :
    Acts s (handleStart slot d s).1 ∧ (handleStart slot d s).2.ofAnswerClass := by
  unfold handleStart
  split
  · exact ⟨.refl, trivial⟩
  · exact ⟨leaveConfig_acts s, trivial⟩

/-! ### Timers and the bus -/

theorem waitUntil_acts (s : State) (d : Nat) : Acts s (s.waitUntil d) := book_acts rfl

theorem runLimitReached_acts (c : Chan) (s : State) : Acts s (runLimitReached c s) := by
  unfold runLimitReached
  split
  · exact endMotion_acts c _ s
  · exact endMotion_acts c _ s
  · exact endReversal_acts c _ _ s
  · exact .refl

theorem raiseErrors_acts (s : State) : Acts s (raiseErrors s) := by
  unfold raiseErrors Config.quietErrors
  split
  · exact .single (.errors s _ (by omega))
  · exact .tail (.single (.errors s 0 (by omega))) (.book rfl)

theorem joinUrgent_length {r : StopRequest} {q : List StopRequest} (h : q.length ≤ 4) :
    (joinUrgent r q).length ≤ 4 := by
  unfold joinUrgent Config.urgentCap
  split
  · simp; omega
  · split
    · next x hx =>
      have : q ≠ [] := by rintro rfl; simp at hx
      have := List.length_pos_of_ne_nil this
      simp; omega
    · exact h

theorem place_acts (slot : Slot) (d : List Byte) (s : State) : Acts s (place slot d s) := by
  unfold place
  split
  · split
    · exact .single (.urgent s _ joinUrgent_length)
    · exact .refl
  · split
    · next hRoom =>
      refine .single (.normal s _ fun _ => ?_)
      unfold Config.normalCap at hRoom
      simp; omega
    · exact handFrame_acts le_rfl s

/-- What a command answers is a state that a chain of elementary changes reaches. -/
def Reaches (s : State) (x : Host.Outcome State Fault Refusal) : Prop := ∃ t, x = .next t ∧ Acts s t

theorem Reaches.next {s t : State} (h : Acts s t) : Reaches s (.next t) := ⟨t, rfl, h⟩

theorem Reaches.flush {s t : State} (h : Acts s t) : Reaches s (.next (flush t)) := .next (h.trans (flush_acts t))

theorem Reaches.stays (s : State) : Reaches s (.next s) := .next .refl

theorem execStallTimerExpiry_reaches (c : Chan) (s : State) : Reaches s (execStallTimerExpiry c s) := by
  unfold execStallTimerExpiry
  split
  · exact .flush ((waitUntil_acts s _).trans (stall_acts c _))
  · exact .stays s

theorem execBrakeExpiry_reaches (c : Chan) (s : State) : Reaches s (execBrakeExpiry c s) := by
  unfold execBrakeExpiry
  split
  · exact .flush ((waitUntil_acts s _).trans (endBrake_acts c _))
  · exact .stays s

theorem execRunTimeLimitExpiry_reaches (c : Chan) (s : State) : Reaches s (execRunTimeLimitExpiry c s) := by
  unfold execRunTimeLimitExpiry
  split
  · exact .flush ((waitUntil_acts s _).trans (runLimitReached_acts c _))
  · exact .stays s

theorem execHoldTimerExpiry_reaches (c : Chan) (s : State) : Reaches s (execHoldTimerExpiry c s) := by
  unfold execHoldTimerExpiry
  split
  · have hStopped (d : Nat) : Acts s ((s.waitUntil d).modCh c fun ch => { ch with holdTimer := none }) :=
      (waitUntil_acts s d).trans (modCh_acts (.of_eq rfl rfl rfl rfl rfl))
    exact .flush ((hStopped _).trans (stopRequest_acts c _ _))
  · exact .stays s

theorem execLatchTimerExpiry_reaches (c : Chan) (slot : Slot) (s : State) : Reaches s (execLatchTimerExpiry c slot s) := by
  unfold execLatchTimerExpiry
  split
  · next l _ =>
    refine .next ((waitUntil_acts s l.expires).trans ?_)
    exact modCh_acts (.of_eq rfl rfl rfl rfl rfl)
  · exact .stays s

theorem execStartSpacingExpiry_reaches (s : State) : Reaches s (execStartSpacingExpiry s) := by
  unfold execStartSpacingExpiry
  split
  · exact .next (book_acts rfl)
  · exact .stays s

theorem execStrikeWindowExpiry_reaches (c : Chan) (s : State) : Reaches s (execStrikeWindowExpiry c s) := by
  unfold execStrikeWindowExpiry
  split
  · exact .flush ((waitUntil_acts s _).trans (modCh_acts (Channel.clearStrikes_keeps _ _)))
  · exact .stays s

theorem execStagingTimerExpiry_reaches (s : State) : Reaches s (execStagingTimerExpiry s) := by
  unfold execStagingTimerExpiry
  split
  · exact .next ((waitUntil_acts s _).trans (freeStaging_acts _))
  · exact .stays s

theorem execVehicleDataHoldExpiry_reaches (s : State) : Reaches s (execVehicleDataHoldExpiry s) := by
  unfold execVehicleDataHoldExpiry
  split
  · refine .next (.trans ?_ (setRoughness_acts (Nat.zero_le 3) _))
    exact book_acts rfl
  · exact .stays s

theorem execHoldLimitExpiry_reaches (s : State) : Reaches s (execHoldLimitExpiry s) := by
  unfold execHoldLimitExpiry
  split
  · exact .flush ((waitUntil_acts s _).trans (expireHoldLimit_acts _))
  · exact .stays s

theorem execBusQuietExpiry_reaches (s : State) : Reaches s (execBusQuietExpiry s) := by
  unfold execBusQuietExpiry
  split
  · exact .next (book_acts rfl)
  · exact .stays s

theorem execRampEnd_reaches (c : Chan) (s : State) : Reaches s (execRampEnd c s) := by
  unfold execRampEnd
  split
  · refine .flush ((waitUntil_acts s _).trans (modCh_acts ?_))
    exact (Channel.enterRunning_keeps _ _).trans (Channel.refreshDuty_keeps _ _)
  · exact .stays s

theorem execRampDutyRecompute_reaches (c : Chan) (s : State) : Reaches s (execRampDutyRecompute c s) := by
  unfold execRampDutyRecompute
  split
  · next r _ _ =>
    extract_lets s1 elapsed
    have hRamp : ((s1.ch c)).Keeps s1.roughness { s1.ch c with ramp := some { r with last := s1.ms } } :=
      .of_eq rfl rfl rfl rfl rfl
    refine .next ((waitUntil_acts s (r.last + 1)).trans (modCh_acts (hRamp.trans ?_)))
    refine Channel.duty_keeps _ (fun ht hb => ?_) rfl
    have hRun : (s1.ch c).runDuty ≤ 1000 := by unfold Channel.inBounds at hb; grind
    exact Channel.rampDuty_le ht hRun (Nat.min_le_left ..)
  · exact .stays s

theorem execConfigIdleExpiry_reaches (s : State) : Reaches s (execConfigIdleExpiry s) := by
  unfold execConfigIdleExpiry
  split
  · exact .next ((waitUntil_acts s _).trans (leaveConfig_acts _))
  · exact .stays s

theorem exec_reaches_of_line {i : Instr} (s : State) (h : match i with
    | .hallTransition .. | .stripAsserted .. | .batterySample .. | .holdAsserted .. | .holdReleased .. | .admission =>
      True
    | _ => False) : Reaches s (exec i s) := by
  cases i with
  | hallTransition c a b n => exact .flush (sampleHall_acts c a b n s)
  | stripAsserted c l n => exact .flush (sampleStrip_acts c l n s)
  | batterySample code =>
    have hCode : code.toNat ≤ 1023 := Nat.le_of_lt_succ code.isLt
    exact .flush (.trans (.trans (waitUntil_acts s _) (book_acts rfl)) (takeSample_acts hCode _))
  | holdAsserted n => exact .flush (sampleHold_acts true n s)
  | holdReleased n => exact .flush (sampleHold_acts false n s)
  | admission =>
    change Reaches s (execAdmission s)
    unfold execAdmission
    split
    · split
      · exact .flush (.trans (book_acts rfl) (admitHead_acts _ _))
      · exact .stays s
    · exact .stays s
  | _ => exact h.elim

/-- Every command but RESET and TUNE is a chain of elementary changes. -/
theorem exec_reaches {i : Instr} (hReset : ∀ pins, i ≠ .reset pins) (hTune : i ≠ .tune) (s : State) :
    Reaches s (exec i s) := by
  cases i with
  | reset pins => exact absurd rfl (hReset pins)
  | tune => exact absurd rfl hTune
  | hallTransition | stripAsserted | batterySample | holdAsserted | holdReleased | admission =>
    exact exec_reaches_of_line s trivial
  | stallTimerExpiry c => exact execStallTimerExpiry_reaches c s
  | brakeExpiry c => exact execBrakeExpiry_reaches c s
  | runTimeLimitExpiry c => exact execRunTimeLimitExpiry_reaches c s
  | holdTimerExpiry c => exact execHoldTimerExpiry_reaches c s
  | latchTimerExpiry c slot => exact execLatchTimerExpiry_reaches c slot s
  | startSpacingExpiry => exact execStartSpacingExpiry_reaches s
  | strikeWindowExpiry c => exact execStrikeWindowExpiry_reaches c s
  | stagingTimerExpiry => exact execStagingTimerExpiry_reaches s
  | vehicleDataHoldExpiry => exact execVehicleDataHoldExpiry_reaches s
  | holdLimitExpiry => exact execHoldLimitExpiry_reaches s
  | busQuietExpiry => exact execBusQuietExpiry_reaches s
  | rampEnd c => exact execRampEnd_reaches c s
  | rampDutyRecompute c => exact execRampDutyRecompute_reaches c s
  | configIdleExpiry => exact execConfigIdleExpiry_reaches s
  | statusPeriodExpiry =>
    refine .flush (.trans (.trans (waitUntil_acts s s.statusTimer) (book_acts rfl)) (forChans_acts (fun c s => ?_) _))
    exact modCh_acts (.of_eq rfl rfl rfl rfl rfl)
  | frameReceived f =>
    change Reaches s (execFrameReceived f s)
    unfold execFrameReceived
    split
    · exact .stays s
    · split
      · exact .stays s
      · exact .next (place_acts _ _ s)
  | move => exact .next (serve_acts handleMove_acts s)
  | group => exact .next (serve_acts handleGroup_acts s)
  | stop =>
    change Reaches s (execStop s)
    unfold execStop
    split
    · next r rest hUrgent =>
      refine .flush (Relation.ReflTransGen.trans (.single (.urgent s rest fun hl => ?_)) (stopMask_acts _ _))
      rw [hUrgent] at hl
      exact Nat.le_of_succ_le hl
    · exact .stays s
  | reference => exact .next (serve_acts handleReference_acts s)
  | lockout => exact .next (serve_acts handleLockout_acts s)
  | query => exact .next (serve_acts handleQuery_acts s)
  | vehicle => exact .next (serve_acts handleVehicle_acts s)
  | profileRead => exact .next (serve_acts handleProfileRead_acts s)
  | readoutFrameHanded => exact .next (.single (.readoutFrame s))
  | restoreBegin => exact .next (serve_acts handleRestoreBegin_acts s)
  | restoreData => exact .next (serve_acts handleRestoreData_acts s)
  | restoreEnd => exact .next (serve_acts handleRestoreEnd_acts s)
  | incidentRead => exact .next (serve_acts handleIncidentRead_acts s)
  | clear => exact .next (serve_acts handleClear_acts s)
  | config => exact .next (serve_acts handleConfig_acts s)
  | start => exact .next (serve_acts handleStart_acts s)
  | unknownRequest =>
    change Reaches s (execUnknownRequest s)
    unfold execUnknownRequest
    split
    · next r rest _ hNormal =>
      split
      · refine .next (conclude_acts _ _ (.single (.normal s rest fun hl => ?_)) trivial)
        rw [hNormal] at hl
        exact Nat.le_of_succ_le hl
      · exact .stays s
    · exact .stays s
  | txOffer =>
    change Reaches s (execTxOffer s)
    unfold execTxOffer
    split
    · next e q hQueue =>
      split
      · next hFree => exact .next (.single (.offer s e q hQueue (Option.isNone_iff_eq_none.1 hFree.1)))
      · exact .stays s
    · exact .stays s
  | txSent =>
    change Reaches s (execTxSent s)
    unfold execTxSent
    split
    · exact .next (.tail (.single (.leave s)) (.errors _ 0 (Nat.zero_le _)))
    · exact .stays s
  | txLostArbitration =>
    change Reaches s (execTxLostArbitration s)
    unfold execTxLostArbitration
    split
    · exact .next (.single (.lost s))
    · exact .stays s
  | txError =>
    change Reaches s (execTxError s)
    unfold execTxError
    split
    · exact .next (Relation.ReflTransGen.trans (.single (.leave s)) (raiseErrors_acts _))
    · exact .stays s

end Sys2Proof.Machine
end

section
/-! PROOFS. The order and the limits of the transmit queue (R172) and of the incident list (R153): each elementary change
keeps both, so every step does. -/

namespace Sys2Proof.Machine

/-! ### TUNE as a chain -/

/-- What a TUNE that is taken stores, by the kind of its target (R187). -/
inductive Tuned : State → State → Prop
  | chan (s : State) (c : Chan) (n v : Nat) (r : ParamRange) (h : chanRange n = some r) (hc : s.partState ≠ .run) :
      Tuned s (s.modCh c (·.tuneTo n (r.bringIn v)))
  | global (s : State) (n v : Nat) (r : ParamRange) (h : globalRange n = some r) :
      Tuned s { s with globals := s.globals.write (r.bringIn v) n }
  | slot (s : State) (i : Slot) (n v : Nat) (r : ParamRange) (h : slotRange n = some r) :
      Tuned s { s with slots := s.slots.set i ((s.slots.get i).write (r.bringIn v) n) }

theorem tuneTarget_eq {n x : Nat} {y : TuneTarget} : tuneTarget n x = some y ↔
    (∃ c r, y = .chan c r ∧ chanRange n = some r ∧ Chan.ofNat? x = some c) ∨
    (∃ r, y = .global r ∧ chanRange n = none ∧ globalRange n = some r ∧ x = 255) ∨
    (∃ i r, y = .slot i r ∧ chanRange n = none ∧ globalRange n = none ∧ slotRange n = some r ∧
      Slot.ofNat? x = some i) := by
  unfold tuneTarget globalMarker
  cases chanRange n with
  | some r => simp [and_comm, eq_comm]
  | none =>
    cases globalRange n with
    | some r => simp [and_comm, eq_comm]
    | none =>
      cases slotRange n with
      | some r => simp [and_comm, eq_comm]
      | none => simp

/-- The handling of a TUNE stores one value or none, and answers. -/
theorem handleTune_stores (slot : Slot) (d : List Byte) (s : State) :
    ((handleTune slot d s).1 = s ∨ Tuned s (handleTune slot d s).1) ∧ (handleTune slot d s).2.ofAnswerClass := by
  unfold handleTune
  dsimp only
  split
  · exact ⟨.inl rfl, trivial⟩
  · next hRun =>
    split
    · exact ⟨.inl rfl, trivial⟩
    · next c r hTarget =>
      obtain ⟨_, _, hy, hr, -⟩ | ⟨_, hy, -⟩ | ⟨_, _, hy, -⟩ := tuneTarget_eq.1 hTarget <;> cases hy
      exact ⟨.inr (.chan s c _ _ r hr hRun), trivial⟩
    · next r hTarget =>
      obtain ⟨_, _, hy, -⟩ | ⟨_, hy, -, hr, -⟩ | ⟨_, _, hy, -⟩ := tuneTarget_eq.1 hTarget <;> cases hy
      exact ⟨.inr (.global s _ _ r hr), trivial⟩
    · next i r hTarget =>
      obtain ⟨_, _, hy, -⟩ | ⟨_, hy, -⟩ | ⟨_, _, hy, -, -, hr, -⟩ := tuneTarget_eq.1 hTarget <;> cases hy
      exact ⟨.inr (.slot s i _ _ r hr), trivial⟩

/-- A TUNE taken by the dispatcher changes nothing but the FIFO before it is handled, stores a value or none, and ends
with its ANSWER. -/
theorem exec_tune_chain (s : State) : ∃ u v t, exec .tune s = .next t ∧ Acts s u ∧ u.channels = s.channels ∧
    u.partState = s.partState ∧ (v = u ∨ Tuned u v) ∧ Acts v t := by
  change ∃ u v t, Host.Outcome.next (serve .tune handleTune s) = .next t ∧ _
  unfold serve
  split
  · next r rest hUrgent hNormal =>
    split
    · have hTaken : Acts s { s with normal := rest } :=
        .single (.normal s rest fun hl => by rw [hNormal] at hl; exact Nat.le_of_succ_le hl)
      have hEnd (x : State × Sends) (hx : x.2.ofAnswerClass) : Acts x.1 (conclude r.slot (byteAt r.data 0) x) :=
        conclude_acts _ _ .refl hx
      have hRefused (y : Reply) : Acts { s with normal := rest }
          (conclude r.slot (byteAt r.data 0) ({ s with normal := rest }, .answer y [])) :=
        hEnd ({ s with normal := rest }, .answer y []) trivial
      unfold screened
      split
      · exact ⟨_, _, _, rfl, hTaken, rfl, rfl, .inl rfl, hRefused _⟩
      · split
        · exact ⟨_, _, _, rfl, hTaken, rfl, rfl, .inl rfl, hRefused _⟩
        · have hTouched : Acts s (touchConfig .tune { s with normal := rest }) :=
            hTaken.trans (touchConfig_acts _ _)
          have hChannels : (touchConfig .tune { s with normal := rest }).channels = s.channels := by
            unfold touchConfig; split <;> rfl
          have hPart : (touchConfig .tune { s with normal := rest }).partState = s.partState := by
            unfold touchConfig; split <;> rfl
          generalize touchConfig .tune { s with normal := rest } = u at hTouched hChannels hPart
          refine ⟨u, _, _, rfl, hTouched, hChannels, hPart, ?_, hEnd _ ?_⟩
          · exact (handleTune_stores r.slot r.data u).1
          · exact (handleTune_stores r.slot r.data u).2
    · exact ⟨s, s, s, rfl, .refl, rfl, rfl, .inl rfl, .refl⟩
  · exact ⟨s, s, s, rfl, .refl, rfl, rfl, .inl rfl, .refl⟩

theorem Tuned.pending {s t : State} (h : Tuned s t) : t.pending = s.pending := by cases h <;> rfl

/-- Settles O2: RESET keeps the waiting commands, and every other command is a chain of changes that each keep them. -/
theorem everyCommandCompletes : Obligations.EveryCommandCompletes := by
  unfold Obligations.EveryCommandCompletes
  intro i s
  by_cases hReset : ∃ pins, i = .reset pins
  · obtain ⟨pins, rfl⟩ := hReset
    exact ⟨_, rfl, rfl⟩
  by_cases hTune : i = .tune
  · subst hTune
    obtain ⟨u, v, t, hExec, hu, -, -, huv, hvt⟩ := exec_tune_chain s
    have hStored : v.pending = u.pending := by
      obtain rfl | h := huv
      · rfl
      · exact h.pending
    exact ⟨t, hExec, hvt.pending.trans (hStored.trans hu.pending)⟩
  · obtain ⟨t, hExec, ht⟩ := exec_reaches (fun pins h => hReset ⟨pins, h⟩) hTune s
    exact ⟨t, hExec, ht.pending⟩

/-- A property that each change keeps, that the clock and the waiting commands do not touch and that holds after RESET is
kept by every step. -/
theorem step_keeps {P : State → Prop} (hAct : ∀ {s t}, P s → Act s t → P t) (hTuned : ∀ {s t}, P s → Tuned s t → P t)
    (hReset : ∀ pins s, P s → P { State.atReset pins with pending := s.pending })
    (hPending : ∀ (s : State) l, P s → P { s with pending := l }) {s t : State} (hs : P s) (h : step s = .next t) :
    P t := by
  have hActs {s t : State} (hs : P s) (h : Acts s t) : P t := by
    induction h with
    | refl => exact hs
    | tail _ hStep ih => exact hAct ih hStep
  unfold step at h
  split at h
  · cases h
    exact hAct hs (.book rfl)
  · next i rest hWaiting =>
    have hs := hPending s rest hs
    generalize ({ s with pending := rest } : State) = s at hs h
    by_cases hR : ∃ pins, i = .reset pins
    · obtain ⟨pins, rfl⟩ := hR
      cases h
      exact hReset pins s hs
    by_cases hT : i = .tune
    · subst hT
      obtain ⟨u, v, t', hExec, hu, -, -, huv, hvt⟩ := exec_tune_chain s
      cases hExec.symm.trans h
      have hu := hActs hs hu
      obtain rfl | hStored := huv
      · exact hActs hu hvt
      · exact hActs (hTuned hu hStored) hvt
    · obtain ⟨t', hExec, ht⟩ := exec_reaches (fun pins h => hR ⟨pins, h⟩) hT s
      cases hExec.symm.trans h
      exact hActs hs ht

/-! ### The incident list -/

theorem appendIncident_length (r : Incident) {l : List Incident} (h : l.length ≤ 8) :
    (appendIncident r l).length ≤ 8 := by
  unfold appendIncident Config.maxIncidents
  split <;> simp <;> omega

theorem mem_appendIncident {r x : Incident} {l : List Incident} (h : x ∈ appendIncident r l) : x ∈ l ∨ x = r := by
  unfold appendIncident at h
  obtain h | h := List.mem_append.1 h
  · left
    split at h
    · exact h
    · exact List.mem_of_mem_drop h
  · exact .inr (List.mem_singleton.1 h)

/-- A record under the next identity joins a list whose identities rise below it. -/
theorem appendIncident_pairwise {r : Incident} {l : List Incident} (h : l.Pairwise fun a b => a.ref < b.ref)
    (hr : ∀ x ∈ l, x.ref < r.ref) : (appendIncident r l).Pairwise fun a b => a.ref < b.ref := by
  unfold appendIncident
  generalize hk : (if l.length < Config.maxIncidents then l else l.drop 1) = k
  have hSub : k.Sublist l := by
    subst hk
    split
    · exact .refl l
    · exact List.drop_sublist 1 l
  refine List.pairwise_append.2 ⟨h.sublist hSub, List.pairwise_singleton .., fun a ha b hb => ?_⟩
  obtain rfl := List.mem_singleton.1 hb
  exact hr a (hSub.subset ha)

/-- An outcome report changes no identity. -/
theorem reportOutcome_refs (c : Chan) (o : ReversalOutcome) (s : State) :
    (reportOutcome c o s).incidents.map (·.ref) = s.incidents.map (·.ref) := by
  have h := congrArg (List.map (·.ref)) (reportOutcome_keeps c o s)
  simpa [List.map_map, Function.comp_def] using h

theorem State.incidentsOwn_congr {s t : State} (hl : t.incidents.map (·.ref) = s.incidents.map (·.ref))
    (hn : t.nextRef = s.nextRef) (h : s.incidentsOwn) : t.incidentsOwn := by
  obtain ⟨hLength, hRise, hBelow⟩ := h
  have hLen : t.incidents.length = s.incidents.length := by simpa using congrArg List.length hl
  refine ⟨hLen ▸ hLength, ?_, fun r hr => ?_⟩
  · have hMapped : (s.incidents.map (·.ref)).Pairwise (· < ·) := List.pairwise_map.2 hRise
    exact List.pairwise_map.1 (hl ▸ hMapped)
  · obtain ⟨x, hx, hRef⟩ := List.mem_map.1 (hl ▸ List.mem_map_of_mem hr : r.ref ∈ s.incidents.map (·.ref))
    rw [hn, ← hRef]
    exact hBelow x hx

theorem Act.incidentsOwn {s t : State} (hs : s.incidentsOwn) (h : Act s t) : t.incidentsOwn := by
  cases h with
  | declared r hr =>
    obtain ⟨hLength, hRise, hBelow⟩ := hs
    refine ⟨appendIncident_length r hLength, appendIncident_pairwise hRise fun x hx => hr ▸ hBelow x hx, ?_⟩
    intro x hx
    obtain hx | rfl := mem_appendIncident hx
    · exact Nat.lt_succ_of_lt (hBelow x hx)
    · exact hr ▸ Nat.lt_succ_self _
  | forget => exact ⟨Nat.zero_le _, .nil, by simp⟩
  | outcome c o => exact s.incidentsOwn_congr (reportOutcome_refs c o s) (by rw [reportOutcome_eq]) hs
  | book h => exact s.incidentsOwn_congr (by rw [h]) (by rw [h]) hs
  | hand f => exact s.incidentsOwn_congr (by rw [handFrame_eq]) (by rw [handFrame_eq]) hs
  | status c => exact s.incidentsOwn_congr (by rw [handStatus_eq]) (by rw [handStatus_eq]) hs
  | readoutFrame => exact s.incidentsOwn_congr (by rw [handReadout_eq]) (by rw [handReadout_eq]) hs
  | leave => exact s.incidentsOwn_congr (by rw [txLeave_eq]) (by rw [txLeave_eq]) hs
  | _ => exact s.incidentsOwn_congr rfl rfl hs

/-! ### The transmit queue -/

/-- The entries of a tag in a queue. -/
def tagged (x : FrameTag) (q : List TxEntry) : Nat := q.countP (fun e => e.frame.tag = x)

/-- The entries in transmission in a queue. -/
def onBusCount (q : List TxEntry) : Nat := q.countP (fun e => e.onBus.isSome)

/-- The queue runs from the highest class to the lowest (R172). -/
def ranked (q : List TxEntry) : Prop := q.Pairwise fun a b => b.frame.tag.rank ≤ a.frame.tag.rank

/-- A frame that joins keeps the order of the classes. -/
theorem txInsert_ranked (f : Frame) {q : List TxEntry} (h : ranked q) : ranked (txInsert f q) := by
  induction q with
  | nil => exact List.pairwise_singleton ..
  | cons e q ih =>
    obtain ⟨hHead, hTail⟩ := List.pairwise_cons.1 h
    unfold txInsert
    split
    · next hRank =>
      refine List.pairwise_cons.2 ⟨fun x hx => ?_, ih hTail⟩
      obtain rfl | hx := (mem_txInsert f q x).1 hx
      · exact hRank
      · exact hHead x hx
    · next hRank =>
      refine List.pairwise_cons.2 ⟨fun x hx => ?_, h⟩
      obtain rfl | hx := List.mem_cons.1 hx
      · exact (not_le.1 hRank).le
      · exact (hHead x hx).trans (not_le.1 hRank).le

theorem txInsert_tagged (f : Frame) (x : FrameTag) (q : List TxEntry) :
    tagged x (txInsert f q) = tagged x q + if f.tag = x then 1 else 0 := by
  rw [tagged, (txInsert_perm f q).countP_eq, List.countP_cons, tagged]
  simp

theorem txInsert_onBusCount (f : Frame) (q : List TxEntry) : onBusCount (txInsert f q) = onBusCount q := by
  rw [onBusCount, (txInsert_perm f q).countP_eq, List.countP_cons, onBusCount]
  simp

/-- The order and the limits of a queue, beside a readout engine that sends or not (R172). -/
structure QueueFits (sending : Bool) (q : List TxEntry) : Prop where
  length : q.length ≤ 12
  ranked : ranked q
  status : ∀ c, tagged (.status c) q ≤ 1
  readout : tagged .readout q ≤ 1
  onBus : onBusCount q ≤ 1
  idle : sending = false → tagged .readout q = 0

theorem State.queueOrdered_iff {s : State} : s.queueOrdered ↔ QueueFits s.readout.isSome s.txQueue := by
  constructor
  · rintro ⟨hLength, hRanked, hStatus, hReadout, hBus, hIdle⟩
    exact ⟨hLength, hRanked, fun c => hStatus c (Chan.mem_all c), hReadout, hBus, fun h => hIdle (by simpa using h)⟩
  · rintro ⟨hLength, hRanked, hStatus, hReadout, hBus, hIdle⟩
    exact ⟨hLength, hRanked, fun c _ => hStatus c, hReadout, hBus, fun h => hIdle (by simp [h])⟩

/-- Part of a queue that fits also fits. -/
theorem QueueFits.sublist {b : Bool} {p q : List TxEntry} (h : QueueFits b q) (hs : p.Sublist q) : QueueFits b p where
  length := hs.length_le.trans h.length
  ranked := h.ranked.sublist hs
  status c := hs.countP_le.trans (h.status c)
  readout := hs.countP_le.trans h.readout
  onBus := hs.countP_le.trans h.onBus
  idle hb := Nat.le_zero.1 (hs.countP_le.trans (h.idle hb).le)

/-- A queue whose places hold frames of the same tags, and no more of them in transmission, fits too. -/
theorem QueueFits.map {b : Bool} {q : List TxEntry} (h : QueueFits b q) {f : TxEntry → TxEntry}
    (hTag : ∀ e, (f e).frame.tag = e.frame.tag) (hBus : ∀ e, (f e).onBus.isSome = true → e.onBus.isSome = true) :
    QueueFits b (q.map f) := by
  have hCount (x : FrameTag) : tagged x (q.map f) = tagged x q := by
    simp only [tagged, List.countP_map, Function.comp_def, hTag]
  refine ⟨by simpa using h.length, ?_, fun c => hCount _ ▸ h.status c, hCount _ ▸ h.readout, ?_,
    fun hb => hCount _ ▸ h.idle hb⟩
  · refine List.pairwise_map.2 (h.ranked.imp fun hab => ?_)
    rwa [hTag, hTag]
  · refine le_trans ?_ h.onBus
    rw [onBusCount, List.countP_map]
    exact List.countP_mono_left fun e _ he => hBus e he

/-- A frame that is the first of its tag where only one may stand fits in where there is room. -/
theorem QueueFits.insert {b : Bool} {q : List TxEntry} (h : QueueFits b q) (f : Frame) (hRoom : q.length < 12)
    (hStatus : ∀ c, f.tag = .status c → tagged (.status c) q = 0)
    (hReadout : f.tag = .readout → tagged .readout q = 0 ∧ b = true) : QueueFits b (txInsert f q) where
  length := by rw [txInsert_length]; omega
  ranked := txInsert_ranked f h.ranked
  status c := by
    rw [txInsert_tagged]; split
    · next hTag => rw [hStatus c hTag]
    · exact h.status c
  readout := by
    rw [txInsert_tagged]; split
    · next hTag => rw [(hReadout hTag).1]
    · exact h.readout
  onBus := by rw [txInsert_onBusCount]; exact h.onBus
  idle hb := by
    rw [txInsert_tagged]; split
    · next hTag => exact absurd (hReadout hTag).2 (by simp [hb])
    · exact h.idle hb

/-- With none in transmission the head may be offered. -/
theorem QueueFits.offer {b : Bool} {e : TxEntry} {q : List TxEntry} (h : QueueFits b (e :: q))
    (hFree : ∀ x ∈ e :: q, ¬x.onBus.isSome = true) :
    QueueFits b ({ e with onBus := some e.frame, renewed := false } :: q) := by
  have hCount (x : FrameTag) : tagged x ({ e with onBus := some e.frame, renewed := false } :: q) =
      tagged x (e :: q) := by simp [tagged, List.countP_cons]
  refine ⟨h.length, ?_, fun c => hCount _ ▸ h.status c, hCount _ ▸ h.readout, ?_, fun hb => hCount _ ▸ h.idle hb⟩
  · exact List.pairwise_cons.2 (List.pairwise_cons.1 h.ranked)
  · have hRest : onBusCount q = 0 := List.countP_eq_zero.2 fun x hx => hFree x (List.mem_cons_of_mem e hx)
    simp only [onBusCount, List.countP_cons] at hRest ⊢
    simp [hRest]

/-- A queue without a READOUT frame fits whatever the engine does. -/
theorem QueueFits.of_none {b b' : Bool} {q : List TxEntry} (h : QueueFits b q) (h0 : tagged .readout q = 0) :
    QueueFits b' q := ⟨h.length, h.ranked, h.status, h.readout, h.onBus, fun _ => h0⟩

theorem readoutDeparted_fits {s : State} (h : QueueFits s.readout.isSome s.txQueue)
    (h0 : tagged .readout s.txQueue = 0) : (readoutDeparted s).queueOrdered := by
  rw [State.queueOrdered_iff, readoutDeparted_txQueue]
  exact h.of_none h0

theorem handFrame_ordered {s : State} {f : Frame} (hf : 2 ≤ f.tag.rank) (h : s.queueOrdered) :
    (handFrame f s).queueOrdered := by
  have hNotStatus (c : Chan) : f.tag ≠ .status c := by
    rintro hc
    rw [hc] at hf
    exact absurd hf (by simp [FrameTag.rank])
  have hNotReadout : f.tag ≠ .readout := by rintro hc; rw [hc] at hf; exact absurd hf (by decide)
  rw [State.queueOrdered_iff] at h
  have hJoin {b : Bool} {q : List TxEntry} (hq : QueueFits b q) (hRoom : q.length < 12) : QueueFits b (txInsert f q) :=
    hq.insert f hRoom (fun c hc => absurd hc (hNotStatus c)) fun hc => absurd hc hNotReadout
  unfold handFrame Config.txCap
  split
  · next hRoom => exact State.queueOrdered_iff.2 (hJoin h hRoom)
  · split
    · next x q hEvict =>
      obtain ⟨a, b, hq, rfl, -⟩ := txEvict_some hEvict
      have hSub : (a ++ b).Sublist s.txQueue := by
        rw [hq]; exact List.Sublist.append_left (List.sublist_cons_self x b) a
      have hLess : (a ++ b).length < 12 := by
        have hLength := h.length
        rw [hq] at hLength
        simp at hLength ⊢
        omega
      have hFits := hJoin (h.sublist hSub) hLess
      dsimp only
      split
      · next hTag =>
        refine readoutDeparted_fits hFits ?_
        have hOne := h.readout
        rw [hq, tagged, List.countP_append, List.countP_cons, if_pos (by simpa using hTag)] at hOne
        rw [txInsert_tagged, if_neg hNotReadout, tagged, List.countP_append]
        omega
      · exact State.queueOrdered_iff.2 hFits
    · exact State.queueOrdered_iff.2 h

theorem handStatus_ordered {s : State} (c : Chan) (h : s.queueOrdered) : (handStatus c s).queueOrdered := by
  rw [State.queueOrdered_iff] at h
  unfold handStatus Config.txCap
  split
  · refine State.queueOrdered_iff.2 (h.map (fun e => ?_) fun e he => ?_)
    · split
      · next hTag => exact hTag.symm
      · rfl
    · split at he <;> exact he
  · next hNone =>
    split
    · next hRoom =>
      refine State.queueOrdered_iff.2 (h.insert _ hRoom (fun d hd => ?_) fun hd => by cases hd)
      obtain rfl : c = d := FrameTag.status.inj hd
      refine List.countP_eq_zero.2 fun e he => ?_
      simpa using fun hTag => hNone (List.any_eq_true.2 ⟨e, he, by simpa using hTag⟩)
    · exact State.queueOrdered_iff.2 h

theorem handReadout_ordered {s : State} (h : s.queueOrdered) : (handReadout s).queueOrdered := by
  unfold handReadout Config.txCap
  rw [State.queueOrdered_iff] at h
  split
  · exact State.queueOrdered_iff.2 h
  · next r hr =>
    split
    · next hDue =>
      refine State.queueOrdered_iff.2 (QueueFits.insert (b := true) ?_ _ hDue.2.1 (fun c hc => by cases hc) fun _ => ⟨?_, rfl⟩)
      · rw [hr] at h; exact h
      · refine List.countP_eq_zero.2 fun e he => ?_
        simpa using List.all_eq_true.1 hDue.2.2 e he
    · exact State.queueOrdered_iff.2 h

theorem txLeave_ordered {s : State} (h : s.queueOrdered) : (txLeave s).queueOrdered := by
  rw [State.queueOrdered_iff] at h
  have hFits : QueueFits s.readout.isSome ((s.txQueue.filter fun e => e.onBus.isNone || e.renewed).map
      fun e => { e with onBus := none, renewed := false }) :=
    (h.sublist List.filter_sublist).map (fun _ => rfl) (by simp)
  unfold txLeave
  dsimp only
  split
  · next hGone =>
    refine readoutDeparted_fits hFits ?_
    obtain ⟨x, hx, hLeaves⟩ := List.any_eq_true.1 hGone
    simp only [Bool.and_eq_true, Bool.not_eq_true', decide_eq_true_eq] at hLeaves
    obtain ⟨⟨hOn, hOld⟩, hTag⟩ := hLeaves
    have hSplit := List.countP_eq_countP_filter_add s.txQueue (fun e => decide (e.frame.tag = .readout))
      (fun e => e.onBus.isNone || e.renewed)
    have hGoes : 0 < (s.txQueue.filter fun e => !(e.onBus.isNone || e.renewed)).countP
        fun e => decide (e.frame.tag = .readout) := by
      refine List.countP_pos_iff.2 ⟨x, List.mem_filter.2 ⟨hx, ?_⟩, by simpa using hTag⟩
      simp [hOld, hOn]
    have hOne := h.readout
    rw [tagged, List.countP_map]
    simp only [tagged, Function.comp_def] at hOne ⊢
    omega
  · exact State.queueOrdered_iff.2 hFits

theorem Act.queueOrdered {s t : State} (hs : s.queueOrdered) (h : Act s t) : t.queueOrdered := by
  cases h with
  | hand f hf => exact handFrame_ordered hf hs
  | status c => exact handStatus_ordered c hs
  | readoutFrame => exact handReadout_ordered hs
  | leave => exact txLeave_ordered hs
  | snapshot c hIdle =>
    rw [State.queueOrdered_iff] at hs ⊢
    exact hs.of_none (hs.idle (by simp [hIdle]))
  | lost =>
    rw [State.queueOrdered_iff] at hs ⊢
    exact hs.map (fun _ => rfl) (by simp)
  | offer e q hq hFree =>
    rw [State.queueOrdered_iff, hq] at hs
    rw [State.inTransmission, hq] at hFree
    exact State.queueOrdered_iff.2 (hs.offer (List.find?_eq_none.1 hFree))
  | book h => rw [h]; exact hs
  | outcome c o => rw [reportOutcome_eq]; exact hs
  | _ => exact hs

theorem Tuned.queueOrdered {s t : State} (hs : s.queueOrdered) (h : Tuned s t) : t.queueOrdered := by
  cases h <;> exact hs

theorem Tuned.incidentsOwn {s t : State} (hs : s.incidentsOwn) (h : Tuned s t) : t.incidentsOwn := by
  cases h <;> exact hs

/-- Settles O7: each elementary change keeps the queue's order and the list's, TUNE touches neither, and RESET empties
both. -/
theorem listsStayOrdered : Obligations.ListsStayOrdered := by
  unfold Obligations.ListsStayOrdered
  constructor
  · intro s t
    refine step_keeps (P := State.queueOrdered) Act.queueOrdered Tuned.queueOrdered (fun pins s _ => ?_) fun _ _ h => h
    exact ⟨Nat.zero_le _, .nil, fun _ _ => Nat.zero_le _, Nat.zero_le _, Nat.zero_le _, fun _ => rfl⟩
  · intro s t
    refine step_keeps (P := State.incidentsOwn) Act.incidentsOwn Tuned.incidentsOwn (fun pins s _ => ?_) fun _ _ h => h
    exact ⟨Nat.zero_le _, .nil, fun r hr => by cases hr⟩

end Sys2Proof.Machine
end

section
/-! PROOFS. The tuning table (section 9.5, R187): what each parameter holds, what a store of one leaves of the others, and
what a TUNE stores. -/

namespace Sys2Proof.Machine

/-! ### The ranges of section 9.5 -/

theorem Chan.ofNat?_eq_some {n : Nat} {c : Chan} : Chan.ofNat? n = some c ↔ c.toNat = n := by
  unfold Chan.ofNat?
  split
  case h_7 => cases c <;> simp [Chan.toNat] <;> grind
  all_goals cases c <;> simp [Chan.toNat]

theorem Slot.ofNat?_eq_some {n : Nat} {i : Slot} : Slot.ofNat? n = some i ↔ i.toNat = n := by
  unfold Slot.ofNat?
  split
  case h_5 => cases i <;> simp [Slot.toNat] <;> grind
  all_goals cases i <;> simp [Slot.toNat]

theorem chanRange_isSome {n : Nat} : (chanRange n).isSome = true ↔ 1 ≤ n ∧ n ≤ 36 := by
  unfold chanRange
  split
  case h_37 => simp; grind
  all_goals simp

theorem globalRange_isSome {n : Nat} : (globalRange n).isSome = true ↔ 64 ≤ n ∧ n ≤ 79 := by
  unfold globalRange
  split
  case h_17 => simp; grind
  all_goals simp

theorem slotRange_isSome {n : Nat} : (slotRange n).isSome = true ↔ 96 ≤ n ∧ n ≤ 100 := by
  unfold slotRange
  split
  case h_6 => simp; grind
  all_goals simp

/-- The numbers of the three tables do not meet, so a target names at most one parameter (R187). -/
theorem tuneTarget_iff {n x : Nat} {y : TuneTarget} : tuneTarget n x = some y ↔
    (∃ c r, y = .chan c r ∧ chanRange n = some r ∧ c.toNat = x) ∨
    (∃ r, y = .global r ∧ globalRange n = some r ∧ x = 255) ∨
    (∃ i r, y = .slot i r ∧ slotRange n = some r ∧ i.toNat = x) := by
  have hChanOfGlobal {r} (h : globalRange n = some r) : chanRange n = none := by
    have := globalRange_isSome.1 (Option.isSome_iff_exists.2 ⟨r, h⟩)
    exact Option.not_isSome_iff_eq_none.1 fun hc => by have := chanRange_isSome.1 hc; omega
  have hOfSlot {r} (h : slotRange n = some r) : chanRange n = none ∧ globalRange n = none := by
    have := slotRange_isSome.1 (Option.isSome_iff_exists.2 ⟨r, h⟩)
    exact ⟨Option.not_isSome_iff_eq_none.1 fun hc => by have := chanRange_isSome.1 hc; omega,
      Option.not_isSome_iff_eq_none.1 fun hc => by have := globalRange_isSome.1 hc; omega⟩
  rw [tuneTarget_eq]
  simp only [Chan.ofNat?_eq_some, Slot.ofNat?_eq_some]
  refine or_congr Iff.rfl (or_congr ?_ ?_)
  · exact exists_congr fun r => and_congr_right fun _ =>
      ⟨fun h => ⟨h.2.1, h.2.2⟩, fun h => ⟨hChanOfGlobal h.1, h.1, h.2⟩⟩
  · exact exists_congr fun i => exists_congr fun r => and_congr_right fun _ =>
      ⟨fun h => ⟨h.2.2.1, h.2.2.2⟩, fun h => ⟨(hOfSlot h.1).1, (hOfSlot h.1).2, h.1, h.2⟩⟩

/-! ### A value brought into a range -/

theorem bringIn_span {low high v : Nat} (h : low ≤ high) : (ParamRange.span low high).bringIn v =
    if v < low then low else if high < v then high else v := by
  change max low (min v high) = _
  split
  · omega
  · split <;> omega

theorem bringIn_z (v : Nat) : (ParamRange.members [16, 32, 64]).bringIn v =
    if v < 32 then 16 else if v < 64 then 32 else 64 := by
  simp only [ParamRange.bringIn, List.foldl_cons, List.foldl_nil, List.headD_cons]
  grind

theorem bringIn_n (v : Nat) : (ParamRange.members [1, 2, 4, 8]).bringIn v =
    if v < 2 then 1 else if v < 4 then 2 else if v < 8 then 4 else 8 := by
  simp only [ParamRange.bringIn, List.foldl_cons, List.foldl_nil, List.headD_cons]
  grind

theorem has_bringIn_span {low high : Nat} (v : Nat) (h : low ≤ high) :
    (ParamRange.span low high).has ((ParamRange.span low high).bringIn v) = true := by
  change decide (low ≤ max low (min v high) ∧ max low (min v high) ≤ high) = true
  rw [decide_eq_true_eq]
  omega

/-- A value brought into a range of the table lies in it. -/
theorem has_bringIn {n v : Nat} {r : ParamRange} (h : chanRange n = some r ∨ globalRange n = some r ∨ slotRange n = some r) :
    r.has (r.bringIn v) = true := by
  have hSets : (ParamRange.members [16, 32, 64]).has ((ParamRange.members [16, 32, 64]).bringIn v) = true ∧
      (ParamRange.members [1, 2, 4, 8]).has ((ParamRange.members [1, 2, 4, 8]).bringIn v) = true := by
    rw [bringIn_z, bringIn_n]
    constructor <;> repeat' split
    all_goals rfl
  obtain h | h | h := h
  · unfold chanRange at h
    split at h <;> cases h
    case h_11 => exact hSets.1
    case h_16 => exact hSets.2
    all_goals exact has_bringIn_span v (by decide)
  · unfold globalRange at h
    split at h <;> cases h <;> exact has_bringIn_span v (by decide)
  · unfold slotRange at h
    split at h <;> cases h <;> exact has_bringIn_span v (by decide)

/-! ### Stores -/

theorem ChanTuning.read_write_ne (t : ChanTuning) (v : Nat) {n k : Nat} (h : k ≠ n) :
    (t.write v n).read k = t.read k := by
  unfold ChanTuning.write
  split
  all_goals
    unfold ChanTuning.read
    split <;> first | rfl | exact absurd rfl h

theorem GlobalTuning.read_write_ne (g : GlobalTuning) (v : Nat) {n k : Nat} (h : k ≠ n) :
    (g.write v n).read k = g.read k := by
  unfold GlobalTuning.write
  split
  all_goals
    unfold GlobalTuning.read
    split <;> first | rfl | exact absurd rfl h

theorem SlotEntry.read_write_ne (e : SlotEntry) (v : Nat) {n k : Nat} (h : k ≠ n) :
    (e.write v n).read k = e.read k := by
  unfold SlotEntry.write
  split
  all_goals
    unfold SlotEntry.read
    split <;> first | rfl | exact absurd rfl h

theorem toNat_decide_one {v : Nat} (h : v ≤ 1) : (decide (v = 1)).toNat = v := by
  interval_cases v <;> rfl

theorem ChanTuning.read_write_self (t : ChanTuning) {n v : Nat} {r : ParamRange} (h : chanRange n = some r)
    (hv : r.has v = true) : (t.write v n).read n = v := by
  unfold chanRange at h
  split at h <;> cases h <;> simp only [ParamRange.has, decide_eq_true_eq] at hv
  case h_1 => exact toNat_decide_one hv.2
  case h_6 => exact toNat_decide_one hv.2
  case h_36 => exact toNat_decide_one hv.2
  case h_2 => obtain ⟨-, hv⟩ := hv; interval_cases v <;> rfl
  case h_3 => obtain ⟨-, hv⟩ := hv; interval_cases v <;> rfl
  case h_4 => obtain ⟨-, hv⟩ := hv; interval_cases v <;> rfl
  case h_5 => obtain ⟨-, hv⟩ := hv; interval_cases v <;> rfl
  all_goals rfl

theorem GlobalTuning.read_write_self (g : GlobalTuning) {n v : Nat} {r : ParamRange} (h : globalRange n = some r)
    (hv : r.has v = true) : (g.write v n).read n = v := by
  unfold globalRange at h
  split at h <;> cases h <;> simp only [ParamRange.has, decide_eq_true_eq] at hv
  case h_8 => exact toNat_decide_one hv.2
  case h_11 => obtain ⟨-, hv⟩ := hv; interval_cases v <;> rfl
  all_goals rfl

theorem SlotEntry.read_write_self (e : SlotEntry) {n v : Nat} {r : ParamRange} (h : slotRange n = some r)
    (hv : r.has v = true) : (e.write v n).read n = v := by
  unfold slotRange at h
  split at h <;> cases h <;> simp only [ParamRange.has, decide_eq_true_eq] at hv
  case h_1 => exact toNat_decide_one hv.2
  case h_4 => rfl
  all_goals
    change (BitVec.ofNat _ v).toNat = v
    rw [BitVec.toNat_ofNat]
    omega

/-- The lines of a table are the model's where the numbers are, each line is, and a store keeps to its own field. -/
theorem tabled_of {α : Type} {rows : List (ParamRow α)} {range : Nat → Option ParamRange} {read : α → Nat → Nat}
    {write : α → Nat → Nat → α} {init : α} {first count : Nat}
    (hNumbers : rows.map (·.number) = List.range' first count)
    (hRange : ∀ n, (range n).isSome = true ↔ first ≤ n ∧ n < first + count)
    (hLine : ∀ r ∈ rows, range r.number = some r.range ∧ read init r.number = r.default ∧
      ∀ t, read t r.number = r.held t)
    (hSelf : ∀ t n v r, range n = some r → r.has v = true → read (write t v n) n = v)
    (hOther : ∀ t n v k, k ≠ n → read (write t v n) k = read t k) : tabled rows range read write init := by
  refine ⟨fun n => ?_, fun r hr => ?_⟩
  · rw [hRange, hNumbers, List.mem_range'_1]
  · obtain ⟨hr, hDefault, hHeld⟩ := hLine r hr
    exact ⟨hr, hDefault, fun t => ⟨hHeld t, fun v hv => ⟨hSelf t _ v _ hr hv, fun k hk => hOther t _ v k hk⟩⟩⟩

theorem chanRows_tabled : tabled chanRows chanRange ChanTuning.read ChanTuning.write .default := by
  refine tabled_of (first := 1) (count := 36) rfl (fun n => ?_) ?_
    (fun t n v r => t.read_write_self) fun t n v k => t.read_write_ne v
  · rw [chanRange_isSome]; omega
  · simp only [chanRows, List.forall_mem_cons]
    repeat refine ⟨⟨rfl, rfl, fun _ => rfl⟩, ?_⟩
    exact fun _ h => nomatch h

theorem globalRows_tabled : tabled globalRows globalRange GlobalTuning.read GlobalTuning.write .default := by
  refine tabled_of (first := 64) (count := 16) rfl (fun n => ?_) ?_
    (fun t n v r => t.read_write_self) fun t n v k => t.read_write_ne v
  · rw [globalRange_isSome]; omega
  · simp only [globalRows, List.forall_mem_cons]
    repeat refine ⟨⟨rfl, rfl, fun _ => rfl⟩, ?_⟩
    exact fun _ h => nomatch h

theorem slotRows_tabled :
    tabled slotRows slotRange SlotEntry.read SlotEntry.write (State.reset.slots.get .s0) := by
  refine tabled_of (first := 96) (count := 5) rfl (fun n => ?_) ?_
    (fun t n v r => t.read_write_self) fun t n v k => t.read_write_ne v
  · rw [slotRange_isSome]; omega
  · simp only [slotRows, List.forall_mem_cons]
    repeat refine ⟨⟨rfl, rfl, fun _ => rfl⟩, ?_⟩
    exact fun _ h => nomatch h

end Sys2Proof.Machine
end

section
/-! PROOFS. The ranges of the part's numbers (O5): each elementary change keeps them, TUNE stores in range, and RESET
sets values in range. -/

namespace Sys2Proof.Machine

/-! ### The reset values and the clamps -/

theorem ChanTuning.default_inRange : ChanTuning.default.inRange := by unfold ChanTuning.inRange; decide

theorem atReset_tuningInRange (pins : Pins) : (State.atReset pins).tuningInRange := by
  have hGlobals : ∀ n < 128, ∀ r ∈ globalRange n, r.has (GlobalTuning.default.read n) = true := by decide
  have hSlots : ∀ n < 128, ∀ i ∈ Slot.all, ∀ r ∈ slotRange n, r.has ((resetSlots.get i).read n) = true := by decide
  refine fun n hn => ⟨fun c _ => ?_, hGlobals n hn, hSlots n hn⟩
  have hTune : ((State.atReset pins).ch c).tune = .default := by cases c <;> rfl
  rw [hTune]
  exact ChanTuning.default_inRange n hn

theorem Channel.atReset_inBounds (a b strip : Bool) : (Channel.atReset a b strip).inBounds := by
  simp only [Channel.inBounds, Channel.atReset, ChanTuning.default, Config.posMin, Config.posMax]
  simp

theorem Channel.atReset_periods (a b strip : Bool) : (Channel.atReset a b strip).periodsInBounds := by
  refine ⟨by simp [Channel.atReset], by simp [Channel.atReset], fun p hp => ?_, fun x hx => ?_⟩
  · rw [List.eq_of_mem_replicate hp]; decide
  · rw [List.eq_of_mem_replicate hx]; decide

theorem atReset_ch (pins : Pins) (c : Chan) :
    (State.atReset pins).ch c = .atReset (pins.hallA.get c) (pins.hallB.get c) (pins.strip.get c) := by
  cases c <;> rfl

theorem atReset_inBounds (pins : Pins) : (State.atReset pins).inBounds := by
  refine ⟨fun c _ => ?_, Nat.zero_le _, Nat.zero_le _, Nat.zero_le _, Nat.zero_le _, Nat.zero_le _,
    by simp [State.atReset], (by decide : 13500 ≤ 25575), Nat.zero_le _, Nat.zero_le _, by simp [State.atReset]⟩
  rw [atReset_ch]
  exact Channel.atReset_inBounds ..

theorem atReset_records (pins : Pins) : (State.atReset pins).recordsInBounds := by
  refine ⟨fun c _ => ?_, by simp [State.atReset], by simp [State.atReset], by simp [State.atReset]⟩
  rw [atReset_ch]
  exact Channel.atReset_periods ..

/-- The clamps of R186, field by field. -/
theorem ChanTuning.clamped_eq (t : ChanTuning) : t.clamped = { t with
    lt := if t.axis = .oneSided then 0 else t.lt
    refEnd := if t.axis = .oneSided then .closed else t.refEnd
    b := min t.b (max t.lo (if t.axis = .oneSided then 0 else t.lt))
    softZone := min t.softZone t.s } := by
  unfold ChanTuning.clamped
  cases hAxis : t.axis <;> simp [hAxis]

theorem ChanTuning.inRange.clamped {t : ChanTuning} (h : t.inRange) : t.clamped.inRange := by
  rw [ChanTuning.clamped_eq]
  intro n hn r hr
  have hHeld := h n hn r hr
  unfold chanRange at hr
  split at hr <;> cases hr
  case h_4 =>
    change (ParamRange.span 0 1).has (RefEnd.code (if t.axis = .oneSided then .closed else t.refEnd)) = true
    split
    · rfl
    · exact hHeld
  case h_9 =>
    change (ParamRange.span 0 4000).has (if t.axis = .oneSided then 0 else t.lt) = true
    split
    · rfl
    · exact hHeld
  case h_12 =>
    have hHeld := of_decide_eq_true hHeld
    exact decide_eq_true ⟨Nat.zero_le _, (Nat.min_le_left ..).trans hHeld.2⟩
  case h_14 =>
    have hHeld := of_decide_eq_true hHeld
    exact decide_eq_true ⟨Nat.zero_le _, (Nat.min_le_left ..).trans hHeld.2⟩
  all_goals exact hHeld

/-! ### What the conditions read -/

theorem State.tuningInRange_congr {s t : State} (h : s.tuningInRange) (hc : ∀ c, (t.ch c).tune = (s.ch c).tune)
    (hg : t.globals = s.globals) (hs : t.slots = s.slots) : t.tuningInRange := by
  intro n hn
  obtain ⟨hChan, hGlobal, hSlot⟩ := h n hn
  exact ⟨fun c hm => hc c ▸ hChan c hm, hg ▸ hGlobal, hs ▸ hSlot⟩

/-- One channel under another tuning in range. -/
theorem State.tuningInRange_setCh {s : State} (h : s.tuningInRange) {c : Chan} {x : Channel} (hx : x.tune.inRange) :
    (s.setCh c x).tuningInRange := by
  intro n hn
  obtain ⟨-, hGlobal, hSlot⟩ := h n hn
  refine ⟨fun d _ => ?_, hGlobal, hSlot⟩
  by_cases hd : d = c
  · subst hd; rw [State.ch_setCh_self]; exact hx n hn
  · rw [State.ch_setCh_ne _ _ hd]; exact h.tune d n hn

/-- Everything that the conditions read beside the channels is the same. -/
def sameBlocks (s t : State) : Prop :=
  t = { s with
    channels := t.channels, pending := t.pending, globals := t.globals, slots := t.slots, clock := t.clock
    quietTimer := t.quietTimer, statusTimer := t.statusTimer, startQueue := t.startQueue, nextRef := t.nextRef
    spacingTimer := t.spacingTimer, band := t.band, nextSample := t.nextSample, holdLine := t.holdLine
    holdSampled := t.holdSampled, holdLimitTimer := t.holdLimitTimer, limitExpired := t.limitExpired
    vehicleTimer := t.vehicleTimer, partState := t.partState, configTimer := t.configTimer }

theorem sameBlocks.inBounds {s t : State} (h : sameBlocks s t) (hs : s.inBounds) (hc : ∀ c, (t.ch c).inBounds) :
    t.inBounds := by
  rw [sameBlocks] at h
  obtain ⟨-, hRest⟩ := hs
  refine ⟨fun c _ => hc c, ?_⟩
  rw [h]
  exact hRest

theorem sameBlocks.records {s t : State} (h : sameBlocks s t) (hs : s.recordsInBounds)
    (hc : ∀ c, (t.ch c).periodsInBounds) : t.recordsInBounds := by
  rw [sameBlocks] at h
  obtain ⟨-, hRest⟩ := hs
  refine ⟨fun c _ => hc c, ?_⟩
  rw [h]
  exact hRest

/-- What a change that keeps the ranges keeps: the tuning's, then the lists' and the channels', then the records'. -/
structure RangesKept (s t : State) : Prop where
  tuning : s.tuningInRange → t.tuningInRange
  bounds : s.tuningInRange → s.inBounds → t.inBounds
  records : s.tuningInRange → s.inBounds → s.recordsInBounds → t.recordsInBounds

theorem RangesKept.trans {s t u : State} (h : RangesKept s t) (k : RangesKept t u) : RangesKept s u where
  tuning hs := k.tuning (h.tuning hs)
  bounds hs hb := k.bounds (h.tuning hs) (h.bounds hs hb)
  records hs hb hr := k.records (h.tuning hs) (h.bounds hs hb) (h.records hs hb hr)

theorem RangesKept.refl (s : State) : RangesKept s s := ⟨id, fun _ => id, fun _ _ => id⟩

theorem State.inBounds_setCh {s : State} (h : s.inBounds) {c : Chan} {x : Channel} (hx : x.inBounds) :
    (s.setCh c x).inBounds := by
  refine sameBlocks.inBounds (s := s) rfl h fun d => ?_
  by_cases hd : d = c
  · subst hd; rw [State.ch_setCh_self]; exact hx
  · rw [State.ch_setCh_ne _ _ hd]; exact h.1 d (Chan.mem_all d)

theorem State.records_setCh {s : State} (h : s.recordsInBounds) {c : Chan} {x : Channel} (hx : x.periodsInBounds) :
    (s.setCh c x).recordsInBounds := by
  refine sameBlocks.records (s := s) rfl h fun d => ?_
  by_cases hd : d = c
  · subst hd; rw [State.ch_setCh_self]; exact hx
  · rw [State.ch_setCh_ne _ _ hd]; exact h.1 d (Chan.mem_all d)

/-- A change of one channel that keeps its numbers in range. -/
theorem RangesKept.setCh {s : State} {c : Chan} {x : Channel} (ht : s.tuningInRange → x.tune.inRange)
    (hb : s.tuningInRange → s.inBounds → x.inBounds)
    (hr : s.tuningInRange → s.inBounds → s.recordsInBounds → x.periodsInBounds) : RangesKept s (s.setCh c x) where
  tuning hs := State.tuningInRange_setCh hs (ht hs)
  bounds hs hB := State.inBounds_setCh hB (hb hs hB)
  records hs hB hR := State.records_setCh hR (hr hs hB hR)

/-- A change of the blocks shared by the channels. -/
theorem RangesKept.of_channels {s t : State} (hc : t.channels = s.channels) (hg : t.globals = s.globals)
    (hs : t.slots = s.slots) (hb : s.tuningInRange → s.inBounds →
      t.urgent.length ≤ 4 ∧ t.normal.length ≤ 8 ∧ t.txQueue.length ≤ 12 ∧ t.txErrors ≤ 15 ∧
      t.samples.length ≤ 4 ∧ (∀ v ∈ t.samples, v ≤ 25575) ∧ t.volts ≤ 25575 ∧
      t.incidents.length ≤ 8 ∧ t.roughness ≤ 3 ∧ (∀ l ∈ t.staging, l.inBounds))
    (hr : s.tuningInRange → s.inBounds → s.recordsInBounds → (∀ r ∈ t.incidents, r.inBounds) ∧
      (∀ r ∈ t.readout, r.inBounds) ∧ ∀ l ∈ t.staging, ∀ p ∈ l.entries, p ≤ 65535) : RangesKept s t := by
  have hCh (c : Chan) : t.ch c = s.ch c := congrArg (·.get c) hc
  exact {
    tuning := fun h => s.tuningInRange_congr h (fun c => by rw [hCh]) hg hs
    bounds := fun h hB => ⟨fun c hm => hCh c ▸ hB.1 c hm, hb h hB⟩
    records := fun h hB hR => ⟨fun c hm => hCh c ▸ hR.1 c hm, hr h hB hR⟩ }

/-! ### The readout engine -/

theorem readoutDeparted_readout (s : State) : ∀ r ∈ (readoutDeparted s).readout, r ∈ s.readout := by
  unfold readoutDeparted
  split
  · split
    · simp
    · exact fun r h => h
  · exact fun r h => h

theorem handFrame_readout (f : Frame) (s : State) : ∀ r ∈ (handFrame f s).readout, r ∈ s.readout := by
  unfold handFrame
  split
  · exact fun r h => h
  · split
    · dsimp only
      split
      · exact readoutDeparted_readout _
      · exact fun r h => h
    · exact fun r h => h

theorem txLeave_readout (s : State) : ∀ r ∈ (txLeave s).readout, r ∈ s.readout := by
  unfold txLeave
  dsimp only
  split
  · exact readoutDeparted_readout _
  · exact fun r h => h

theorem txLeave_length (s : State) : (txLeave s).txQueue.length ≤ s.txQueue.length := by
  have hLength := List.length_filter_le (fun e : TxEntry => e.onBus.isNone || e.renewed) s.txQueue
  unfold txLeave
  dsimp only
  split
  · rw [readoutDeparted_txQueue]; simpa using hLength
  · simpa using hLength

theorem txLeave_frame (s : State) :
    txLeave s = { s with txQueue := (txLeave s).txQueue, readout := (txLeave s).readout } := by
  unfold txLeave
  dsimp only
  split
  · obtain ⟨r, hr⟩ := readoutDeparted_eq { s with txQueue := ((s.txQueue.filter fun e => e.onBus.isNone || e.renewed).map
      fun e => { e with onBus := none, renewed := false }) }
    rw [hr]
  · rfl

/-- The engine hands a frame while one is left and a place is free, or does nothing (R68). -/
theorem handReadout_cases (s : State) : handReadout s = s ∨ ∃ r, s.readout = some r ∧ r.handed < r.snap.frames ∧
    s.txQueue.length < 12 ∧ handReadout s = { s with
      readout := some { r with handed := r.handed + 1 }
      txQueue := txInsert (readoutFrame s.globals r.snap r.handed) s.txQueue } := by
  unfold handReadout Config.txCap
  split
  · exact .inl rfl
  · next r hr =>
    split
    · next h => exact .inr ⟨r, hr, h.1, h.2.1, rfl⟩
    · exact .inl rfl

/-! ### The elementary changes -/

theorem Channel.snapshot_inBounds {c : Chan} {u : Channel} (hb : u.inBounds) (hp : u.periodsInBounds) :
    (⟨snapshotOf c u, 0⟩ : Readout).inBounds := by
  obtain ⟨hLow, hHigh, -, -, -, -, -, -, -, -, -, -, -, -, hZones, -⟩ := hb
  obtain ⟨-, -, hEntries, -⟩ := hp
  refine ⟨Nat.zero_le _, hZones, hEntries, hLow, hHigh, ?_⟩
  exact Nat.le_of_lt_succ (Nat.mod_lt _ (by decide))

theorem Act.ranges {s t : State} (h : Act s t) : RangesKept s t := by
  cases h with
  | chan c x hx =>
    refine .setCh (fun hs => by rw [hx.tune]; exact hs.tune c) (fun hs hB => ?_) fun hs hB hR => ?_
    · exact (hx.bounds hB.2.2.2.2.2.2.2.2.2.1 (hs.tune c) (hB.1 c (Chan.mem_all c))).1
    · exact (hx.bounds hB.2.2.2.2.2.2.2.2.2.1 (hs.tune c) (hB.1 c (Chan.mem_all c))).2 (hR.1 c (Chan.mem_all c))
  | clamp c =>
    refine .setCh (fun hs => (hs.tune c).clamped) (fun _ hB => ?_) fun _ _ hR => ?_
    · have := hB.1 c (Chan.mem_all c)
      simp only [Channel.inBounds, ChanTuning.clamped_eq] at this ⊢
      exact this
    · have := hR.1 c (Chan.mem_all c)
      simp only [Channel.periodsInBounds, ChanTuning.clamped_eq] at this ⊢
      exact this
  | install l hl hc hf =>
    have hFree : RangesKept s { s with staging := none } := by
      refine .of_channels rfl rfl rfl (fun _ hB => ?_) fun _ _ hR => ?_
      · obtain ⟨-, h1, h2, h3, h4, h5, h6, h7, h8, h9, -⟩ := hB
        exact ⟨h1, h2, h3, h4, h5, h6, h7, h8, h9, by simp⟩
      · obtain ⟨-, h1, h2, -⟩ := hR
        exact ⟨h1, h2, by simp⟩
    have hFits := of_decide_eq_true hf
    have hTable (hs : s.tuningInRange) (hB : s.inBounds) : l.entries.length = (s.ch l.chan).tune.z := by
      have hStaged : l.inBounds := by
        obtain ⟨-, -, -, -, -, -, -, -, -, -, hStaging⟩ := hB
        exact hStaging l hl
      obtain ⟨-, -, hz, -⟩ := (hs.tune l.chan).bounds
      have hLength := hStaged.1
      rw [hc, hFits.1] at hLength
      omega
    have hSet : { s with staging := none }.modCh l.chan (fun ch => { ch with zones := l.entries }) =
      { s.setCh l.chan { s.ch l.chan with zones := l.entries } with staging := none } := rfl
    have hInstalled : RangesKept s (s.setCh l.chan { s.ch l.chan with zones := l.entries }) := by
      refine .setCh (fun hs => hs.tune l.chan) (fun hs hB => ?_) fun _ _ hR => ?_
      · have := hB.1 l.chan (Chan.mem_all _)
        simp only [Channel.inBounds] at this ⊢
        rw [hTable hs hB]
        simp only [this, true_and]
        exact this.2.2.2.2.2.2.2.2.2.2.2.2.2.2.2.2
      · obtain ⟨hRun, hRing, -, hAccum⟩ := hR.1 l.chan (Chan.mem_all _)
        exact ⟨hRun, hRing, hR.2.2.2 l hl, hAccum⟩
    rw [hSet]
    refine hInstalled.trans ?_
    refine .of_channels rfl rfl rfl (fun _ hB => ?_) fun _ _ hR => ?_
    · obtain ⟨-, h1, h2, h3, h4, h5, h6, h7, h8, h9, -⟩ := hB
      exact ⟨h1, h2, h3, h4, h5, h6, h7, h8, h9, by simp⟩
    · obtain ⟨-, h1, h2, -⟩ := hR
      exact ⟨h1, h2, by simp⟩
  | book h =>
    have hc : t.channels = s.channels := by rw [h]
    refine .of_channels hc (by rw [h]) (by rw [h]) (fun _ hB => ?_) fun _ _ hR => ?_
    · rw [h]; exact hB.2
    · rw [h]; exact hR.2
  | hand f hf =>
    have hEq := handFrame_eq f s
    refine .of_channels (by rw [hEq]) (by rw [hEq]) (by rw [hEq]) (fun _ hB => ?_) fun _ _ hR => ?_
    · obtain ⟨-, h1, h2, h3, hRest⟩ := hB
      have hLength := handFrame_length (f := f) h3
      rw [hEq]
      exact ⟨h1, h2, hLength, hRest⟩
    · obtain ⟨-, h1, h2, h3⟩ := hR
      have hReadout := handFrame_readout f s
      rw [hEq]
      exact ⟨h1, fun r hr => h2 r (hReadout r hr), h3⟩
  | status c =>
    have hEq := handStatus_eq c s
    refine .of_channels (by rw [hEq]) (by rw [hEq]) (by rw [hEq]) (fun _ hB => ?_) fun _ _ hR => ?_
    · obtain ⟨-, h1, h2, h3, hRest⟩ := hB
      have hLength := (handStatus_length c s).2.2 h3
      rw [hEq]
      exact ⟨h1, h2, hLength, hRest⟩
    · rw [hEq]; exact hR.2
  | readoutFrame =>
    obtain hEq | ⟨r, hr, hMore, hRoom, hEq⟩ := handReadout_cases s
    · rw [hEq]; exact .refl s
    · rw [hEq]
      refine .of_channels rfl rfl rfl (fun _ hB => ?_) fun _ _ hR => ?_
      · obtain ⟨-, h1, h2, -, hRest⟩ := hB
        exact ⟨h1, h2, by rw [txInsert_length]; omega, hRest⟩
      · obtain ⟨-, h1, h2, h3⟩ := hR
        refine ⟨h1, fun x hx => ?_, h3⟩
        obtain rfl := Option.some.inj hx
        exact ⟨hMore, (h2 r hr).2⟩
  | snapshot c hIdle =>
    refine .of_channels rfl rfl rfl (fun _ hB => hB.2) fun _ hB hR => ⟨hR.2.1, fun x hx => ?_, hR.2.2.2⟩
    obtain rfl := Option.some.inj hx
    exact Channel.snapshot_inBounds (hB.1 c (Chan.mem_all c)) (hR.1 c (Chan.mem_all c))
  | offer e q hq hn =>
    refine .of_channels rfl rfl rfl (fun _ hB => ?_) fun _ _ hR => hR.2
    obtain ⟨-, h1, h2, h3, hRest⟩ := hB
    rw [hq] at h3
    exact ⟨h1, h2, h3, hRest⟩
  | leave =>
    have hEq := txLeave_frame s
    refine .of_channels (by rw [hEq]) (by rw [hEq]) (by rw [hEq]) (fun _ hB => ?_) fun _ _ hR => ?_
    · obtain ⟨-, h1, h2, h3, hRest⟩ := hB
      have hLength := (txLeave_length s).trans h3
      rw [hEq]
      exact ⟨h1, h2, hLength, hRest⟩
    · obtain ⟨-, h1, h2, h3⟩ := hR
      have hReadout := txLeave_readout s
      rw [hEq]
      exact ⟨h1, fun r hr => h2 r (hReadout r hr), h3⟩
  | lost =>
    refine .of_channels rfl rfl rfl (fun _ hB => ?_) fun _ _ hR => hR.2
    obtain ⟨-, h1, h2, h3, hRest⟩ := hB
    exact ⟨h1, h2, by simpa using h3, hRest⟩
  | errors n hn =>
    refine .of_channels rfl rfl rfl (fun _ hB => ?_) fun _ _ hR => hR.2
    obtain ⟨-, h1, h2, h3, -, hRest⟩ := hB
    exact ⟨h1, h2, h3, hn, hRest⟩
  | outcome c o =>
    have hEq := reportOutcome_eq c o s
    have hLength : (reportOutcome c o s).incidents.length = s.incidents.length := by
      simpa using congrArg List.length (reportOutcome_refs c o s)
    refine .of_channels (by rw [hEq]) (by rw [hEq]) (by rw [hEq]) (fun _ hB => ?_) fun _ hB hR => ?_
    · obtain ⟨-, h1, h2, h3, h4, h5, h6, h7, h8, hRest⟩ := hB
      rw [hEq]
      exact ⟨h1, h2, h3, h4, h5, h6, h7, hLength.trans_le h8, hRest⟩
    · have hMem : ∀ r ∈ (reportOutcome c o s).incidents, r.inBounds := by
        obtain ⟨hLow, hHigh, -⟩ := hB.1 c (Chan.mem_all c)
        unfold reportOutcome
        split
        · exact hR.2.1
        · intro r hr
          obtain ⟨x, hx, rfl⟩ := List.mem_map.1 hr
          obtain ⟨h1, h2, h3, h4, h5, h6, h7, h8, h9⟩ := hR.2.1 x hx
          split
          · refine ⟨h1, h2, h3, h4, h5, h6, h7, h8, fun y hy => ?_⟩
            obtain rfl := Option.some.inj hy
            exact ⟨hLow, hHigh⟩
          · exact ⟨h1, h2, h3, h4, h5, h6, h7, h8, h9⟩
      rw [hEq]
      exact ⟨hMem, hR.2.2⟩
  | declared r hr hb =>
    refine .of_channels rfl rfl rfl (fun _ hB => ?_) fun hs hB hR => ⟨fun x hx => ?_, hR.2.2⟩
    · obtain ⟨-, h1, h2, h3, h4, h5, h6, h7, h8, hRest⟩ := hB
      exact ⟨h1, h2, h3, h4, h5, h6, h7, appendIncident_length r h8, hRest⟩
    · obtain hx | rfl := mem_appendIncident hx
      · exact hR.2.1 x hx
      · exact hb hs hB
  | forget =>
    refine .of_channels rfl rfl rfl (fun _ hB => ?_) fun _ _ hR => ⟨by simp, hR.2.2⟩
    obtain ⟨-, h1, h2, h3, h4, h5, h6, h7, -, hRest⟩ := hB
    exact ⟨h1, h2, h3, h4, h5, h6, h7, Nat.zero_le _, hRest⟩
  | urgent q hq =>
    refine .of_channels rfl rfl rfl (fun _ hB => ?_) fun _ _ hR => hR.2
    exact ⟨hq hB.2.1, hB.2.2⟩
  | normal q hq =>
    refine .of_channels rfl rfl rfl (fun _ hB => ?_) fun _ _ hR => hR.2
    exact ⟨hB.2.1, hq hB.2.2.1, hB.2.2.2⟩
  | sample l v hv =>
    refine .of_channels rfl rfl rfl (fun _ hB => ?_) fun _ _ hR => hR.2
    obtain ⟨-, h1, h2, h3, h4, h5, h6, -, hRest⟩ := hB
    obtain ⟨hLength, hMem, hMean⟩ := hv h5 h6
    exact ⟨h1, h2, h3, h4, hLength, hMem, hMean, hRest⟩
  | rough n hn =>
    refine .of_channels rfl rfl rfl (fun _ hB => ?_) fun _ _ hR => hR.2
    obtain ⟨-, h1, h2, h3, h4, h5, h6, h7, h8, -, hRest⟩ := hB
    exact ⟨h1, h2, h3, h4, h5, h6, h7, h8, hn, hRest⟩
  | stage l hl =>
    refine .of_channels rfl rfl rfl (fun _ hB => ?_) fun _ _ hR => ⟨hR.2.1, hR.2.2.1, fun x hx => ?_⟩
    · obtain ⟨-, h1, h2, h3, h4, h5, h6, h7, h8, h9, hRest⟩ := hB
      exact ⟨h1, h2, h3, h4, h5, h6, h7, h8, h9, fun x hx => (hl x hx).1 hRest⟩
    · exact (hl x hx).2 hR.2.2.2

theorem Acts.ranges {s t : State} (h : Acts s t) : RangesKept s t := by
  induction h with
  | refl => exact .refl s
  | tail _ hStep ih => exact ih.trans hStep.ranges

/-! ### TUNE -/

/-- A value brought into a channel parameter's range leaves the tuning in range. -/
theorem ChanTuning.inRange.write {t : ChanTuning} (h : t.inRange) {n v : Nat} {r : ParamRange}
    (hr : chanRange n = some r) : (t.write (r.bringIn v) n).inRange := by
  intro k hk x hx
  by_cases hkn : k = n
  · subst hkn
    obtain rfl : r = x := Option.some.inj (hr.symm.trans hx)
    rw [t.read_write_self hr (has_bringIn (.inl hr))]
    exact has_bringIn (.inl hr)
  · rw [t.read_write_ne _ hkn]
    exact h k hk x hx

theorem Channel.tuneTo_inRange {u : Channel} (h : u.tune.inRange) {n : Nat} (v : Nat) {r : ParamRange}
    (hr : chanRange n = some r) : (u.tuneTo n (r.bringIn v)).tune.inRange := by
  by_cases hv : u.tune.read n = r.bringIn v
  · rw [Channel.tuneTo_of_held hv]; exact h
  · rw [Channel.tuneTo_of_change hv, Channel.tuned_tune]; exact h.write hr

/-- A store, in range, leaves the numbers of the channel in range: a new Z comes with a new table. -/
theorem Channel.tuneTo_inBounds {u : Channel} (h : u.inBounds) (n v : Nat) : (u.tuneTo n v).inBounds := by
  by_cases hv : u.tune.read n = v
  · rw [Channel.tuneTo_of_held hv]; exact h
  rw [Channel.tuneTo_of_change hv]
  have hZ (hn : ¬ofGeometry n) : (u.tune.write v n).z = u.tune.z :=
    u.tune.read_write_ne v (k := 11) fun h11 => hn (.inr (.inr (.inr h11.symm)))
  obtain ⟨-, hEq⟩ | ⟨hn, -, hEq⟩ | ⟨hn, -, hEq⟩ := Channel.tuned_cases n { u with tune := u.tune.write v n }
  all_goals
    rw [hEq]
    simp only [Channel.inBounds, Channel.setDatum, Channel.clearZones, Channel.zeroAccum] at h ⊢
    simp [h]
  · exact h.2.2.2.2.2.2.2.2.2.2.2.2.2.2.2.2
  · simp only [hZ hn, true_and]
    exact h.2.2.2.2.2.2.2.2.2.2.2.2.2.2.2.2
  · simp only [hZ hn, true_and]
    exact h.2.2.2.2.2.2.2.2.2.2.2.2.2.2.2.2

/-- On a channel that does not run, a store keeps the periods in range. -/
theorem Channel.tuneTo_periods {u : Channel} (h : u.periodsInBounds) (hIdle : u.mstate ≠ .running) (n v : Nat) :
    (u.tuneTo n v).periodsInBounds := by
  by_cases hv : u.tune.read n = v
  · rw [Channel.tuneTo_of_held hv]; exact h
  rw [Channel.tuneTo_of_change hv]
  obtain ⟨-, hRing, hZones, hAccum⟩ := h
  obtain ⟨-, hEq⟩ | ⟨-, -, hEq⟩ | ⟨-, -, hEq⟩ := Channel.tuned_cases n { u with tune := u.tune.write v n } <;> rw [hEq]
  · refine ⟨fun h => absurd h hIdle, hRing, fun p hp => ?_, fun x hx => ?_⟩
    · rw [List.eq_of_mem_replicate hp]; exact Nat.zero_le _
    · rw [List.eq_of_mem_replicate hx]; exact ⟨Nat.zero_le _, Nat.zero_le _⟩
  · exact ⟨fun h => absurd h hIdle, hRing, hZones, hAccum⟩
  · exact ⟨fun h => absurd h hIdle, hRing, hZones, hAccum⟩

/-- What a TUNE stores is in range; where every channel is IDLE, no ring runs under the N that changes. -/
theorem Tuned.ranges {s t : State} (h : Tuned s t) :
    (s.tuningInRange → t.tuningInRange) ∧ (s.inBounds → t.inBounds) ∧
      ((s.partState ≠ .run → ∀ c, (s.ch c).mstate ≠ .running) → s.recordsInBounds → t.recordsInBounds) := by
  cases h with
  | chan c n v r hr hc =>
    exact ⟨fun hs => State.tuningInRange_setCh hs (Channel.tuneTo_inRange (hs.tune c) v hr),
      fun hB => State.inBounds_setCh hB (Channel.tuneTo_inBounds (hB.1 c (Chan.mem_all c)) ..),
      fun hIdle hR => State.records_setCh hR (Channel.tuneTo_periods (hR.1 c (Chan.mem_all c)) (hIdle hc c) ..)⟩
  | global n v r hr =>
    refine ⟨fun hs k hk => ?_, id, fun _ => id⟩
    obtain ⟨hChan, hGlobal, hSlot⟩ := hs k hk
    refine ⟨hChan, fun x hx => ?_, hSlot⟩
    by_cases hkn : k = n
    · subst hkn
      obtain rfl : r = x := Option.some.inj (hr.symm.trans hx)
      exact (s.globals.read_write_self hr (has_bringIn (.inr (.inl hr)))).symm ▸ has_bringIn (.inr (.inl hr))
    · exact (s.globals.read_write_ne _ hkn).symm ▸ hGlobal x hx
  | slot i n v r hr =>
    refine ⟨fun hs k hk => ?_, id, fun _ => id⟩
    obtain ⟨hChan, hGlobal, hSlot⟩ := hs k hk
    refine ⟨hChan, hGlobal, fun j hj x hx => ?_⟩
    dsimp only
    by_cases hji : j = i
    · subst hji
      rw [PerSlot.get_set_self]
      by_cases hkn : k = n
      · subst hkn
        obtain rfl : r = x := Option.some.inj (hr.symm.trans hx)
        rw [SlotEntry.read_write_self _ hr (has_bringIn (.inr (.inr hr)))]
        exact has_bringIn (.inr (.inr hr))
      · rw [SlotEntry.read_write_ne _ _ hkn]
        exact hSlot j hj x hx
    · rw [PerSlot.get_set_ne _ _ hji]
      exact hSlot j hj x hx

/-! ### Every step -/

/-- What O5 says of a step, for a command carried out on a state. -/
def rangesStep (s t : State) : Prop :=
  s.tuningInRange → t.tuningInRange ∧ (s.inBounds → t.inBounds) ∧
    (s.coherent → s.inBounds → s.recordsInBounds → t.recordsInBounds)

theorem RangesKept.rangesStep {s t : State} (h : RangesKept s t) : rangesStep s t :=
  fun hs => ⟨h.tuning hs, h.bounds hs, fun _ => h.records hs⟩

/-- A TUNE keeps the ranges; in CONFIG, where it stores, a part in agreement has every channel IDLE (O6). -/
theorem exec_tune_ranges {s t : State} (h : exec .tune s = .next t) : rangesStep s t := by
  obtain ⟨u, v, t', hExec, hsu, hChannels, hPart, huv, hvt⟩ := exec_tune_chain s
  obtain rfl : t' = t := Host.Outcome.next.inj (hExec.symm.trans h)
  obtain rfl | hStored := huv
  · exact (hsu.ranges.trans hvt.ranges).rangesStep
  obtain ⟨hTuning, hBounds, hRecords⟩ := hStored.ranges
  have hSu := hsu.ranges
  have hVt := hvt.ranges
  intro hs
  refine ⟨hVt.tuning (hTuning (hSu.tuning hs)), fun hB => ?_, fun hC hB hR => ?_⟩
  · exact hVt.bounds (hTuning (hSu.tuning hs)) (hBounds (hSu.bounds hs hB))
  · have hIdle (hu : u.partState ≠ .run) (c : Chan) : (u.ch c).mstate ≠ .running := by
      obtain ⟨-, -, -, -, hConfig⟩ := hC
      have hSame : u.ch c = s.ch c := congrArg (·.get c) hChannels
      have hState : s.partState = .config := by
        rw [hPart] at hu
        cases hp : s.partState
        · rfl
        · exact absurd hp hu
      rw [hSame, hConfig hState c (Chan.mem_all c)]
      decide
    exact hVt.records (hTuning (hSu.tuning hs)) (hBounds (hSu.bounds hs hB))
      (hRecords hIdle (hSu.records hs hB hR))

/-- Settles O5: each elementary change keeps the ranges; TUNE stores in range; RESET sets values in range. -/
theorem rangesAreKept : Obligations.RangesAreKept := by
  unfold Obligations.RangesAreKept
  intro s t hs h
  unfold step at h
  split at h
  · cases h
    exact (Act.ranges (.book rfl)).rangesStep hs
  · next i rest _ =>
    have hPending : rangesStep { s with pending := rest } t := by
      generalize ({ s with pending := rest } : State) = u at h
      by_cases hR : ∃ pins, i = .reset pins
      · obtain ⟨pins, rfl⟩ := hR
        cases h
        exact fun _ => ⟨atReset_tuningInRange pins, fun _ => atReset_inBounds pins, fun _ _ _ => atReset_records pins⟩
      by_cases hT : i = .tune
      · subst hT
        exact exec_tune_ranges h
      · obtain ⟨t', hExec, ht⟩ := exec_reaches (fun pins h => hR ⟨pins, h⟩) hT u
        cases hExec.symm.trans h
        exact ht.ranges.rangesStep
    exact hPending hs

end Sys2Proof.Machine
end

section
/-! PROOFS. No STATUS is left over (O4): a command hands what it triggered at its end, or triggers nothing. -/

namespace Sys2Proof.Machine

section
variable {s t : State}

theorem State.noneDue.congr (hs : s.noneDue) (h : ∀ c, (t.ch c).statusDue = (s.ch c).statusDue) : t.noneDue :=
  fun c hc => (h c).trans (hs c hc)

/-- A part whose channels are the same. -/
theorem State.noneDue.of_channels (hs : s.noneDue) (h : t.channels = s.channels) : t.noneDue :=
  hs.congr fun c => congrArg (fun v => (v.get c).statusDue) h

theorem State.noneDue.modCh (hs : s.noneDue) {c : Chan} {f : Channel → Channel}
    (h : (f (s.ch c)).statusDue = (s.ch c).statusDue) : (s.modCh c f).noneDue := by
  refine hs.congr fun d => ?_
  rw [State.ch_modCh]
  split
  · next hd => rw [hd]; exact h
  · rfl

theorem handFrame_noneDue (f : Frame) (hs : s.noneDue) : (handFrame f s).noneDue :=
  hs.congr fun c => by rw [handFrame_ch]

theorem conclude_noneDue (slot : Slot) (kind : Nat) (x : State × Sends) : (conclude slot kind x).noneDue := by
  unfold conclude
  dsimp only
  split
  · exact flush_noneDue _
  · exact handFrame_noneDue _ (flush_noneDue _)
  · next fs _ =>
    have hHanded (fs : List Frame) : ∀ {u : State}, u.noneDue → (fs.foldl (fun s f => handFrame f s) u).noneDue := by
      induction fs with
      | nil => exact id
      | cons f fs ih => exact fun hu => ih (handFrame_noneDue f hu)
    exact hHanded fs (flush_noneDue _)

theorem serve_noneDue (k : RequestKind) (h : Slot → List Byte → State → State × Sends) (hs : s.noneDue) :
    (serve k h s).noneDue := by
  unfold serve
  split
  · split
    · exact conclude_noneDue _ _ _
    · exact hs
  · exact hs

theorem forChans_noneDue {f : Chan → State → State} (hf : ∀ c s, s.noneDue → (f c s).noneDue) (hs : s.noneDue) :
    (forChans f s).noneDue := forChans_induct State.noneDue hs hf

theorem setRoughness_noneDue (n : Nat) (hs : s.noneDue) : (setRoughness n s).noneDue := by
  unfold setRoughness
  split
  · exact hs
  · exact forChans_noneDue (fun c s hs => hs.modCh rfl) (hs.of_channels rfl)

theorem leaveConfig_noneDue (hs : s.noneDue) : (leaveConfig s).noneDue := by
  have hClamped : (forChans (fun c s => s.modCh c fun ch => { ch with tune := ch.tune.clamped })
      { s with staging := none }).noneDue := forChans_noneDue (fun c s hs => hs.modCh rfl) (hs.of_channels rfl)
  unfold leaveConfig
  exact hClamped.of_channels rfl

theorem place_noneDue (slot : Slot) (d : List Byte) (hs : s.noneDue) : (place slot d s).noneDue := by
  unfold place
  split
  · split
    · exact hs.of_channels rfl
    · exact hs
  · split
    · exact hs.of_channels rfl
    · exact handFrame_noneDue _ hs

/-- The outcome of a command, if it goes on, leaves no STATUS over. -/
def leavesNoneDue (x : Host.Outcome State Fault Refusal) : Prop := ∀ t, x = .next t → t.noneDue

theorem leavesNoneDue.next (h : t.noneDue) : leavesNoneDue (.next t) := fun _ ht => Host.Outcome.next.inj ht ▸ h

theorem leavesNoneDue.flush (s : State) : leavesNoneDue (.next (flush s)) := .next (flush_noneDue s)

/-- A command that hands the STATUS frames at its end, or does nothing where its event does not happen. -/
theorem exec_event_noneDue {i : Instr} (hs : s.noneDue) (h : match i with
    | .stallTimerExpiry _ | .rampEnd _ | .brakeExpiry _ | .runTimeLimitExpiry _ | .holdTimerExpiry _ | .admission
    | .strikeWindowExpiry _ | .stop | .holdLimitExpiry => True
    | _ => False) : leavesNoneDue (exec i s) := by
  cases i with
  | stallTimerExpiry c =>
    change leavesNoneDue (execStallTimerExpiry c s)
    unfold execStallTimerExpiry
    split
    · exact .flush _
    · exact .next hs
  | rampEnd c =>
    change leavesNoneDue (execRampEnd c s)
    unfold execRampEnd
    split
    · exact .flush _
    · exact .next hs
  | brakeExpiry c =>
    change leavesNoneDue (execBrakeExpiry c s)
    unfold execBrakeExpiry
    split
    · exact .flush _
    · exact .next hs
  | runTimeLimitExpiry c =>
    change leavesNoneDue (execRunTimeLimitExpiry c s)
    unfold execRunTimeLimitExpiry
    split
    · exact .flush _
    · exact .next hs
  | holdTimerExpiry c =>
    change leavesNoneDue (execHoldTimerExpiry c s)
    unfold execHoldTimerExpiry
    split
    · exact .flush _
    · exact .next hs
  | admission =>
    change leavesNoneDue (execAdmission s)
    unfold execAdmission
    split
    · split
      · exact .flush _
      · exact .next hs
    · exact .next hs
  | strikeWindowExpiry c =>
    change leavesNoneDue (execStrikeWindowExpiry c s)
    unfold execStrikeWindowExpiry
    split
    · exact .flush _
    · exact .next hs
  | stop =>
    change leavesNoneDue (execStop s)
    unfold execStop
    split
    · exact .flush _
    · exact .next hs
  | holdLimitExpiry =>
    change leavesNoneDue (execHoldLimitExpiry s)
    unfold execHoldLimitExpiry
    split
    · exact .flush _
    · exact .next hs
  | _ => exact h.elim

theorem txLeave_noneDue (hs : s.noneDue) : (txLeave s).noneDue :=
  hs.of_channels (by rw [txLeave_frame])

theorem exec_noneDue (i : Instr) (hs : s.noneDue) : leavesNoneDue (exec i s) := by
  cases i with
  | reset pins => exact .next fun c _ => (congrArg (·.statusDue) (atReset_ch pins c))
  | hallTransition | stripAsserted | batterySample | holdAsserted | holdReleased | statusPeriodExpiry => exact .flush _
  | stallTimerExpiry | rampEnd | brakeExpiry | runTimeLimitExpiry | holdTimerExpiry | admission
  | strikeWindowExpiry | stop | holdLimitExpiry => exact exec_event_noneDue hs trivial
  | move | group | reference | lockout | query | vehicle | profileRead | restoreBegin | restoreData | restoreEnd
  | incidentRead | clear | config | start | tune => exact .next (serve_noneDue _ _ hs)
  | latchTimerExpiry c slot =>
    change leavesNoneDue (execLatchTimerExpiry c slot s)
    unfold execLatchTimerExpiry
    split
    · exact .next ((hs.of_channels (State.waitUntil_channels ..)).modCh rfl)
    · exact .next hs
  | startSpacingExpiry =>
    change leavesNoneDue (execStartSpacingExpiry s)
    unfold execStartSpacingExpiry
    split
    · exact .next (hs.of_channels rfl)
    · exact .next hs
  | stagingTimerExpiry =>
    change leavesNoneDue (execStagingTimerExpiry s)
    unfold execStagingTimerExpiry
    split
    · exact .next (hs.of_channels rfl)
    · exact .next hs
  | busQuietExpiry =>
    change leavesNoneDue (execBusQuietExpiry s)
    unfold execBusQuietExpiry
    split
    · exact .next (hs.of_channels rfl)
    · exact .next hs
  | vehicleDataHoldExpiry =>
    change leavesNoneDue (execVehicleDataHoldExpiry s)
    unfold execVehicleDataHoldExpiry
    split
    · exact .next (setRoughness_noneDue 0 (hs.of_channels rfl))
    · exact .next hs
  | configIdleExpiry =>
    change leavesNoneDue (execConfigIdleExpiry s)
    unfold execConfigIdleExpiry
    split
    · exact .next (leaveConfig_noneDue (hs.of_channels rfl))
    · exact .next hs
  | rampDutyRecompute c =>
    change leavesNoneDue (execRampDutyRecompute c s)
    unfold execRampDutyRecompute
    split
    · exact .next ((hs.of_channels (State.waitUntil_channels ..)).modCh rfl)
    · exact .next hs
  | frameReceived f =>
    change leavesNoneDue (execFrameReceived f s)
    unfold execFrameReceived
    split
    · exact .next hs
    · split
      · exact .next hs
      · exact .next (place_noneDue _ _ hs)
  | unknownRequest =>
    change leavesNoneDue (execUnknownRequest s)
    unfold execUnknownRequest
    split
    · split
      · exact .next (conclude_noneDue _ _ _)
      · exact .next hs
    · exact .next hs
  | readoutFrameHanded =>
    exact .next (hs.of_channels (by rw [handReadout_eq]))
  | txOffer =>
    change leavesNoneDue (execTxOffer s)
    unfold execTxOffer
    split
    · split
      · exact .next (hs.of_channels rfl)
      · exact .next hs
    · exact .next hs
  | txSent =>
    change leavesNoneDue (execTxSent s)
    unfold execTxSent
    split
    · exact .next ((txLeave_noneDue hs).of_channels rfl)
    · exact .next hs
  | txLostArbitration =>
    change leavesNoneDue (execTxLostArbitration s)
    unfold execTxLostArbitration
    split
    · exact .next (hs.of_channels rfl)
    · exact .next hs
  | txError =>
    change leavesNoneDue (execTxError s)
    unfold execTxError raiseErrors
    split
    · split
      · exact .next ((txLeave_noneDue hs).of_channels rfl)
      · exact .next ((txLeave_noneDue hs).of_channels rfl)
    · exact .next hs

end

/-- Settles O4: the step's command leaves none over, and the clock alone triggers none. -/
theorem noStatusLeftOver : Obligations.NoStatusLeftOver := by
  unfold Obligations.NoStatusLeftOver
  intro s t hs h
  unfold step at h
  split at h
  · cases h
    exact hs.of_channels rfl
  · next i rest _ => exact exec_noneDue (s := { s with pending := rest }) i (hs.of_channels rfl) t h

end Sys2Proof.Machine
end

section
/-! PROOFS. The step itself, the reset (R180), the adaptation of one zone (R65), and the frame every event and request
leaves: what the hand-over of the STATUS frames and of an answer keeps. -/

namespace Sys2Proof.Machine
/-! ### The step and the reset -/

/-- Settles O1: both sides of the fetch are the definition of `step`. -/
theorem stepTakesFront : Obligations.StepTakesFront := by
  unfold Obligations.StepTakesFront
  refine ⟨fun c rest s hPending => by rw [step, hPending], fun s hPending => ⟨tick s, ?_, rfl, rfl⟩⟩
  rw [step, hPending]

/-- The bit rates by straps (R164). -/
theorem bitRateOf_eq (x : BitVec 2) : bitRateOf x = [125, 250, 500, 1000].getD x.toNat 0 := by
  revert x; decide

/-- Settles O3: reset installs `State.atReset`, each channel with the levels of its own lines. -/
theorem resetLeaves : Obligations.ResetLeaves := by
  unfold Obligations.ResetLeaves
  intro pins s
  have hCh (c : Chan) : ({ State.atReset pins with pending := s.pending } : State).ch c =
      .atReset (pins.hallA.get c) (pins.hallB.get c) (pins.strip.get c) := atReset_ch pins c
  have hLatches (i : Slot) : (PerSlot.const (none : Option Latch)).get i = none ∧
      (PerSlot.const true).get i = true := ⟨PerSlot.get_const _ i, PerSlot.get_const _ i⟩
  have hSlots (i : Slot) (hi : i ≠ .s0) : resetSlots.get i = ⟨false, 0x000#11, 0x7FF#11, 0, 0#5⟩ := by
    cases i with
    | s0 => exact absurd rfl hi
    | s1 | s2 | s3 => rfl
  refine ⟨_, rfl, rfl, fun c => ?_, rfl, rfl, rfl, hSlots, bitRateOf_eq pins.straps, ?_⟩
  · rw [hCh]
    exact ⟨rfl, rfl, rfl, rfl, rfl, rfl, rfl, rfl, rfl, rfl, rfl, rfl, rfl, rfl, rfl, rfl, rfl, rfl, rfl, rfl, rfl, rfl,
      rfl, rfl, rfl, rfl, rfl, rfl, rfl, rfl, rfl, hLatches, rfl, rfl⟩
  · and_intros <;> rfl

/-- A channel after reset is in agreement: IDLE, without a record or an owner, its bridge OFF (R25, R109, R136). -/
theorem Channel.atReset_coherent (a b strip : Bool) : (Channel.atReset a b strip).coherent := by
  simp [Channel.coherent, Channel.atReset, Channel.bridgeFollows, Channel.ownerFollows, Channel.ownerGoal,
    Channel.drives, Bridge.dir, MotionState.driving]

theorem atReset_coherent (pins : Pins) : (State.atReset pins).coherent := by
  have hIdle (c : Chan) : ((State.atReset pins).ch c).mstate = .idle := by rw [atReset_ch]; rfl
  refine ⟨fun c _ => ?_, List.nodup_nil, fun c _ => ?_, fun h => absurd h Bool.false_ne_true, fun _ c _ => hIdle c⟩
  · rw [atReset_ch]; exact Channel.atReset_coherent ..
  · rw [hIdle]; simp [State.atReset]

/-- Settles O8: the reset values of the blocks, one invariant after the other. -/
theorem resetMeetsInvariants : Obligations.ResetMeetsInvariants := by
  unfold Obligations.ResetMeetsInvariants
  refine ⟨fun c _ => ?_, atReset_tuningInRange _, atReset_inBounds _, atReset_records _, atReset_coherent _, ?_, ?_⟩
  · rw [State.reset, atReset_ch]; rfl
  · simp [State.queueOrdered, State.reset, State.atReset]
  · simp [State.incidentsOwn, State.reset, State.atReset]

/-- Settles O53: the zone is the reference itself, the whole average, or `adaptZone_within`. -/
theorem zonesAdaptByAnEighth : Obligations.ZonesAdaptByAnEighth := by
  unfold Obligations.ZonesAdaptByAnEighth
  intro ladapt pref x avg
  refine ⟨fun h => by rw [adaptZone, if_pos h], fun h hp => ?_, fun h hp hle hd => ?_, fun h hp hlt hd => ?_,
    fun h hp hd => ?_⟩
  · simp only [adaptZone, if_neg h.ne', if_pos hp, avg]
  · have hIn : adaptZone ladapt pref x = _ := adaptZone_within h.ne' hp.ne' (by omega)
    rw [hIn, if_pos hle]; omega
  · have hIn : adaptZone ladapt pref x = _ := adaptZone_within h.ne' hp.ne' (by omega)
    rw [hIn, if_neg hlt.not_ge]; omega
  · simp only [adaptZone, if_neg h.ne', if_neg hp.ne']
    rw [if_neg]
    have : avg = x.sum / x.count := rfl
    omega

end Sys2Proof.Machine
end

section
/-! PROOFS. What the end of an event and of a request leaves as it was: the hand-over of the STATUS frames (R177, R197),
the answer (R171), and the taking of a request (R169). -/

namespace Sys2Proof.Machine
section
variable {s u v : State} {c d : Chan}

/-! ### The end of an event -/

theorem State.noneDue.due (hs : s.noneDue) (c : Chan) : (s.ch c).statusDue = false := hs c (Chan.mem_all c)

/-- Clearing the mark of a channel that has none changes nothing. -/
theorem Channel.unmarked {x : Channel} (h : x.statusDue = false) : { x with statusDue := false } = x := by
  rw [← h]

theorem flush_ch_of_kept (hs : s.noneDue) (h : u.ch d = s.ch d) : (flush u).ch d = s.ch d := by
  rw [flush_ch, h, Channel.unmarked (hs.due d)]

theorem flush_othersKept (hs : s.noneDue) (h : othersKept c s u) : othersKept c s (flush u) :=
  fun d hd => flush_ch_of_kept hs (h d hd)

theorem flush_statusHanded (hDue : (u.ch c).statusDue = true) (hq : u.txQueue.length ≤ s.txQueue.length + 2) :
    statusHanded c s (flush u) := by
  intro hRoom
  simp only [Config.txCap] at hRoom
  exact flush_mem hDue (by omega)

theorem flush_rest (u : State) :
    flush u = { u with channels := (flush u).channels, txQueue := (flush u).txQueue } := by
  conv_lhs => rw [flush_eq]
  have : (flush u).channels = PerChan.ofFn fun c => { u.ch c with statusDue := false } := by
    rw [flush_eq]
  rw [this]

/-- An event of one channel, its STATUS frames handed. -/
theorem oneChannel.flush_part (h : oneChannel c v u) : flush u = { v with
    channels := (flush u).channels, startQueue := u.startQueue, spacingTimer := u.spacingTimer
    incidents := u.incidents, nextRef := u.nextRef, txQueue := (flush u).txQueue, readout := u.readout } := by
  have hPart := h.part
  have hFlush := flush_rest u
  generalize flush u = t at hFlush ⊢
  rw [hPart] at hFlush
  exact hFlush

/-- An event of one channel that triggers no STATUS hands none. -/
theorem oneChannel.noneDue (h : oneChannel c s u) (hs : s.noneDue) (hDue : (u.ch c).statusDue = false) :
    u.noneDue := by
  intro d _
  by_cases hd : d = c
  · rw [hd, hDue]
  · rw [h.others d hd, hs.due d]

/-- The channels that an operation of one channel leaves. -/
theorem othersKept.channels (h : othersKept c s u) : u.channels = s.channels.set c (u.ch c) := by
  refine PerChan.ext_get fun d => ?_
  by_cases hd : d = c
  · rw [hd, PerChan.get_set_self]; rfl
  · rw [PerChan.get_set_ne _ _ hd]; exact h d hd

/-! ### The taking of a request -/

theorem State.taken_of_free {k : RequestKind} {rest : List Request} (h : k.right ≠ some .service) :
    s.taken k rest = { s with normal := rest } := by
  unfold State.taken touchConfig
  rw [if_neg fun hk => h hk.1]

theorem State.taken_of_config {k : RequestKind} {rest : List Request} (h : s.partState = .config)
    (hk : k.right = some .service) :
    s.taken k rest = { s with normal := rest, configTimer := some (s.ms + 3000) } := by
  unfold State.taken touchConfig
  rw [if_pos ⟨hk, h⟩]; rfl

@[simp] theorem State.taken_txQueue (k : RequestKind) (rest : List Request) : (s.taken k rest).txQueue = s.txQueue := by
  rw [State.taken_eq]

theorem State.taken_noneDue {k : RequestKind} {rest : List Request} (hs : s.noneDue) : (s.taken k rest).noneDue :=
  hs.congr fun c => by rw [State.taken_ch]

/-! ### The end of a request -/

/-- The code of a kind of request (R192). -/
def RequestKind.code : RequestKind → Nat
  | .move => 1 | .group => 2 | .stop => 3 | .reference => 4 | .lockout => 5 | .query => 6 | .vehicle => 7
  | .profileRead => 8 | .restoreBegin => 9 | .restoreData => 10 | .restoreEnd => 11 | .incidentRead => 12
  | .clear => 13 | .config => 14 | .start => 15 | .tune => 16

theorem RequestKind.ofCode_eq_some {n : Nat} {k : RequestKind} : RequestKind.ofCode n = some k ↔ n = k.code := by
  constructor
  · intro h
    unfold RequestKind.ofCode at h
    split at h <;> cases h <;> rfl
  · rintro rfl
    cases k <;> rfl

theorem serve_takes {k : RequestKind} {slot : Slot} {b : List Byte} {rest : List Request} (h : s.takes k slot b rest)
    (f : Slot → List Byte → State → State × Sends) :
    serve k f s = conclude slot k.code (f slot b (s.taken k rest)) := by
  have hKind : kindOf b = some k := h.2.2.1
  rw [serve_of_takes h, RequestKind.ofCode_eq_some.1 (code_of_kindOf hKind)]

/-! A request that passes its screen is handled and ends with what its handling says (R169 to R171). -/

section
variable {slot : Slot} {b : List Byte} {rest : List Request}

theorem exec_move (h : s.takes .move slot b rest) :
    exec .move s = .next (conclude slot 1 (handleMove slot b (s.taken .move rest))) :=
  congrArg Host.Outcome.next (serve_takes h handleMove)

theorem exec_group (h : s.takes .group slot b rest) :
    exec .group s = .next (conclude slot 2 (handleGroup slot b (s.taken .group rest))) :=
  congrArg Host.Outcome.next (serve_takes h handleGroup)

theorem exec_reference (h : s.takes .reference slot b rest) :
    exec .reference s = .next (conclude slot 4 (handleReference slot b (s.taken .reference rest))) :=
  congrArg Host.Outcome.next (serve_takes h handleReference)

theorem exec_lockout (h : s.takes .lockout slot b rest) :
    exec .lockout s = .next (conclude slot 5 (handleLockout slot b (s.taken .lockout rest))) :=
  congrArg Host.Outcome.next (serve_takes h handleLockout)

theorem exec_query (h : s.takes .query slot b rest) :
    exec .query s = .next (conclude slot 6 (handleQuery slot b (s.taken .query rest))) :=
  congrArg Host.Outcome.next (serve_takes h handleQuery)

theorem exec_vehicle (h : s.takes .vehicle slot b rest) :
    exec .vehicle s = .next (conclude slot 7 (handleVehicle slot b (s.taken .vehicle rest))) :=
  congrArg Host.Outcome.next (serve_takes h handleVehicle)

theorem exec_profileRead (h : s.takes .profileRead slot b rest) :
    exec .profileRead s = .next (conclude slot 8 (handleProfileRead slot b (s.taken .profileRead rest))) :=
  congrArg Host.Outcome.next (serve_takes h handleProfileRead)

theorem exec_restoreBegin (h : s.takes .restoreBegin slot b rest) :
    exec .restoreBegin s = .next (conclude slot 9 (handleRestoreBegin slot b (s.taken .restoreBegin rest))) :=
  congrArg Host.Outcome.next (serve_takes h handleRestoreBegin)

theorem exec_restoreData (h : s.takes .restoreData slot b rest) :
    exec .restoreData s = .next (conclude slot 10 (handleRestoreData slot b (s.taken .restoreData rest))) :=
  congrArg Host.Outcome.next (serve_takes h handleRestoreData)

theorem exec_restoreEnd (h : s.takes .restoreEnd slot b rest) :
    exec .restoreEnd s = .next (conclude slot 11 (handleRestoreEnd slot b (s.taken .restoreEnd rest))) :=
  congrArg Host.Outcome.next (serve_takes h handleRestoreEnd)

theorem exec_incidentRead (h : s.takes .incidentRead slot b rest) :
    exec .incidentRead s = .next (conclude slot 12 (handleIncidentRead slot b (s.taken .incidentRead rest))) :=
  congrArg Host.Outcome.next (serve_takes h handleIncidentRead)

theorem exec_clear (h : s.takes .clear slot b rest) :
    exec .clear s = .next (conclude slot 13 (handleClear slot b (s.taken .clear rest))) :=
  congrArg Host.Outcome.next (serve_takes h handleClear)

theorem exec_config (h : s.takes .config slot b rest) :
    exec .config s = .next (conclude slot 14 (handleConfig slot b (s.taken .config rest))) :=
  congrArg Host.Outcome.next (serve_takes h handleConfig)

theorem exec_start (h : s.takes .start slot b rest) :
    exec .start s = .next (conclude slot 15 (handleStart slot b (s.taken .start rest))) :=
  congrArg Host.Outcome.next (serve_takes h handleStart)

theorem exec_tune (h : s.takes .tune slot b rest) :
    exec .tune s = .next (conclude slot 16 (handleTune slot b (s.taken .tune rest))) :=
  congrArg Host.Outcome.next (serve_takes h handleTune)

end

theorem conclude_channelsKept (slot : Slot) (kind : Nat) (r : Reply) (t : List Nat) (hs : s.noneDue)
    (h : ∀ c, u.ch c = s.ch c) : channelsKept s (conclude slot kind (u, .answer r t)) := by
  intro c
  rw [conclude_answer_ch, h, Channel.unmarked (hs.due c)]

theorem conclude_othersKept (slot : Slot) (kind : Nat) (r : Reply) (t : List Nat) (hs : s.noneDue)
    (h : othersKept c s u) : othersKept c s (conclude slot kind (u, .answer r t)) := by
  intro d hd
  rw [conclude_answer_ch, h d hd, Channel.unmarked (hs.due d)]

theorem conclude_rest (slot : Slot) (kind : Nat) (u : State) (r : Reply) (t : List Nat) :
    conclude slot kind (u, .answer r t) = { u with
      channels := (conclude slot kind (u, .answer r t)).channels
      txQueue := (conclude slot kind (u, .answer r t)).txQueue
      readout := (conclude slot kind (u, .answer r t)).readout } := by
  have h := conclude_answer_eq slot kind u r t
  generalize conclude slot kind (u, .answer r t) = x at h ⊢
  rw [h]

theorem conclude_statusHanded {slot : Slot} {kind : Nat} {r : Reply} {t : List Nat}
    (hDue : (u.ch c).statusDue = true) (hq : u.txQueue.length ≤ s.txQueue.length + 1) :
    statusHanded c s (conclude slot kind (u, .answer r t)) := by
  intro hRoom
  simp only [Config.txCap] at hRoom
  obtain ⟨e, he, hFrame⟩ := flush_mem hDue (by omega)
  have hLength := (flush_length u).2.1
  rw [conclude_answer, handFrame_room (by omega)]
  exact ⟨e, (mem_txInsert _ _ _).2 (.inr he), hFrame⟩

end

/-! ### Timers whose expiry only clears what they guard -/

section
variable {s : State} {d : Nat}

theorem exec_latchTimerExpiry {c : Chan} {i : Slot} {l : Latch} (h : (s.ch c).latches.get i = some l) :
    exec (.latchTimerExpiry c i) s =
      .next ((s.waitUntil l.expires).modCh c fun ch => { ch with latches := ch.latches.set i none }) := by
  change execLatchTimerExpiry c i s = _
  rw [execLatchTimerExpiry, h]

theorem exec_startSpacingExpiry (h : s.spacingTimer = some d) :
    exec .startSpacingExpiry s = .next { s.waitUntil d with spacingTimer := none } := by
  change execStartSpacingExpiry s = _
  rw [execStartSpacingExpiry, h]

theorem exec_stagingTimerExpiry {l : Staging} (h : s.staging = some l) :
    exec .stagingTimerExpiry s = .next { s.waitUntil l.expires with staging := none } := by
  change execStagingTimerExpiry s = _
  rw [execStagingTimerExpiry, h]

theorem exec_busQuietExpiry (h : s.quietTimer = some d) :
    exec .busQuietExpiry s = .next { s.waitUntil d with quietTimer := none } := by
  change execBusQuietExpiry s = _
  rw [execBusQuietExpiry, h]

theorem exec_strikeWindowExpiry {c : Chan} (h : (s.ch c).strikeTimer = some d) :
    exec (.strikeWindowExpiry c) s = .next (flush ((s.waitUntil d).modCh c (·.clearStrikes))) := by
  change execStrikeWindowExpiry c s = _
  rw [execStrikeWindowExpiry, h]

end

/-- Settles O27: each expiry waits for its moment and clears the one field. -/
theorem timersRunOut : Obligations.TimersRunOut := by
  unfold Obligations.TimersRunOut
  refine ⟨fun s c i l h => ?_, fun s d h => ⟨_, exec_startSpacingExpiry h, rfl, rfl, rfl⟩,
    fun s l h => ⟨_, exec_stagingTimerExpiry h, rfl, rfl, rfl⟩, fun s d h => ⟨_, exec_busQuietExpiry h, rfl, rfl, rfl⟩,
    fun s c d hs h => ?_⟩
  · refine ⟨_, exec_latchTimerExpiry h, rfl, by simp, fun j hj => by simp [hj], ?_, (modCh_oneChannel c _ _).others, rfl⟩
    rw [State.ch_modCh_self, State.ch_waitUntil]
  · have hOne := modCh_oneChannel c (·.clearStrikes) (s.waitUntil d)
    have hCh : ((s.waitUntil d).modCh c (·.clearStrikes)).ch c = (s.ch c).clearStrikes := by simp
    refine ⟨_, exec_strikeWindowExpiry h, by rw [hOne.flush_part]; rfl, ?_, ?_, fun hStrikes => ?_,
      ?_, flush_othersKept hs hOne.others, by rw [hOne.flush_part]; rfl⟩
    · rw [flush_ch, hCh]; rfl
    · rw [flush_ch, hCh]; rfl
    · refine flush_statusHanded ?_ (Nat.le_add_right ..)
      rw [hCh, Channel.clearStrikes, Channel.setStrikes_statusDue]
      simp [hStrikes]
    · rw [flush_ch, hCh, ← hs.due c]; rfl

end Sys2Proof.Machine
end

section
/-! PROOFS. The bytes of the frames (R191): bytes and fields of numbers, and the bit fields of a frame of 64 bits. -/

namespace Sys2Proof.Machine
theorem foldl_bytesOf (n v a : Nat) :
    (bytesOf n v).foldl (fun x b => x * 256 + b.toNat) a = a * 256 ^ n + v % 256 ^ n := by
  induction n generalizing a with
  | zero => simp [bytesOf, Nat.mod_one]
  | succ n ih =>
    have hSplit : v % (256 ^ n * 256) = v % 256 ^ n + 256 ^ n * (v / 256 ^ n % 256) := Nat.mod_mul
    simp only [bytesOf, List.foldl_cons, ih, BitVec.toNat_ofNat, Nat.pow_succ]
    rw [hSplit]; ring

/-- A number that fits is carried whole by its bytes, high byte first (R191). -/
theorem bigEndian_bytesOf {n v : Nat} (h : v < 256 ^ n) : bigEndian (bytesOf n v) = v := by
  rw [bigEndian, foldl_bytesOf, Nat.zero_mul, Nat.zero_add, Nat.mod_eq_of_lt h]

theorem bytesOf_length (n v : Nat) : (bytesOf n v).length = n := by
  induction n with
  | zero => rfl
  | succ n ih => simp [bytesOf, ih]

/-- A 16-bit field, high byte first (R191). -/
theorem bytesOf_two {v : Nat} (h : v < 65536) : (bytesOf 2 v).map (·.toNat) = [v / 256, v % 256] := by
  simp [bytesOf]; omega

theorem byteOf_toNat {v : Nat} (h : v < 256) : (byteOf v).toNat = v := by
  rw [byteOf, BitVec.toNat_ofNat]; exact Nat.mod_eq_of_lt h

theorem pack_of_lt {w v : Nat} (h : v < 2 ^ w) (acc : Nat) : pack acc w v = acc * 2 ^ w + v := by
  rw [pack, Nat.mod_eq_of_lt h]

/-- A signed value in a field that holds it is its two's complement (R191). -/
theorem field_eq {w : Nat} {p : Int} (hLow : -(2 ^ w : Nat) ≤ p) (hHigh : p < (2 ^ w : Nat)) :
    field w p = twosComplement w p := by
  unfold field twosComplement
  congr 1
  split
  · next h => rw [← Int.add_emod_right, Int.emod_eq_of_lt (by omega) (by omega)]; norm_cast
  · next h => exact Int.emod_eq_of_lt (by omega) hHigh

theorem twosComplement_lt {w : Nat} {p : Int} (hLow : -(2 ^ w : Nat) ≤ p) (hHigh : p < (2 ^ w : Nat)) :
    twosComplement w p < 2 ^ w := by
  unfold twosComplement
  push_cast at hLow hHigh
  have : (0 : Int) < 2 ^ w := by positivity
  rw [Int.toNat_lt (by split <;> omega)]
  push_cast
  split <;> omega

/-! ### The frames -/

/-- The codes of R194, R195 and R196 fit the bits of their fields. -/
theorem MotionState.code_lt (x : MotionState) : x.code < 2 ^ 3 := by cases x <;> decide
theorem Mode.statusCode_lt (m : Mode) : m.statusCode < 2 ^ 3 := by cases m <;> decide
theorem Datum.code_lt (x : Datum) : x.code < 2 ^ 2 := by cases x <;> decide
theorem StopCause.code_lt (x : StopCause) : x.code < 2 ^ 4 := by cases x <;> decide
theorem Slot.toNat_lt (i : Slot) : i.toNat < 4 := by cases i <;> decide
theorem Chan.toNat_lt (c : Chan) : c.toNat < 6 := by cases c <;> decide
theorem IncidentCause.code_lt (x : IncidentCause) : x.code < 2 ^ 2 := by cases x <;> decide
theorem Band.code_lt (x : Band) : x.code < 2 ^ 2 := by cases x <;> decide
theorem Reply.code_lt (r : Reply) : r.code < 256 := by cases r <;> decide

theorem ownerCode_lt (o : Option Owner) : ownerCode o < 2 ^ 4 := by
  cases o with
  | none => decide
  | some o =>
    have := Slot.toNat_lt o.slot
    simp only [ownerCode]
    split <;> omega

/-- The fields of a STATUS frame, each in its place (R194). -/
theorem statusBits_eq {u : Channel} {volts : Nat} (band : Band) (h : u.inBounds) (hVolts : volts ≤ 25575) :
    statusBits u volts band =
      u.mstate.code * 2 ^ 61 + (u.motion.map (·.mode.statusCode)).getD 0 * 2 ^ 58 + u.datum.code * 2 ^ 56 +
        u.stopCause.code * 2 ^ 52 + ownerCode u.owner * 2 ^ 48 + twosComplement 15 u.position * 2 ^ 33 +
        u.strikes * 2 ^ 31 + u.summary.step.toNat * 2 ^ 30 + u.summary.reverse.toNat * 2 ^ 29 +
        u.summary.speed.toNat * 2 ^ 28 + u.lastF * 2 ^ 18 + u.lastT * 2 ^ 8 + band.code * 2 ^ 6 + volts / 500 ∧
    statusBits u volts band < 2 ^ 64 := by
  obtain ⟨hLow, hHigh, -, -, -, -, -, -, hF, -, hT, hStrikes, -⟩ := h
  simp only [Config.posMin, Config.posMax] at hLow hHigh
  have hField : field 15 u.position = twosComplement 15 u.position := field_eq (by omega) (by omega)
  have hPosition : twosComplement 15 u.position < 2 ^ 15 := twosComplement_lt (by omega) (by omega)
  have hMode : (u.motion.map (·.mode.statusCode)).getD 0 < 2 ^ 3 := by
    cases u.motion with
    | none => decide
    | some m => exact m.mode.statusCode_lt
  have hBit (b : Bool) : b.toNat < 2 ^ 1 := by cases b <;> decide
  have hStep := hBit u.summary.step
  have hReverse := hBit u.summary.reverse
  have hSpeed := hBit u.summary.speed
  have hState := u.mstate.code_lt
  have hDatum := u.datum.code_lt
  have hCause := u.stopCause.code_lt
  have hOwner := ownerCode_lt u.owner
  have hBand := band.code_lt
  have hBoth {n : Nat} (hSum : statusBits u volts band = n) (hn : n < 2 ^ 64) :
      statusBits u volts band = n ∧ statusBits u volts band < 2 ^ 64 := ⟨hSum, hSum ▸ hn⟩
  refine hBoth ?_ (by omega)
  unfold statusBits
  dsimp only
  rw [hField, pack_of_lt hState, pack_of_lt hMode, pack_of_lt hDatum, pack_of_lt hCause, pack_of_lt hOwner,
    pack_of_lt hPosition, pack_of_lt (show u.strikes < 2 ^ 2 by omega), pack_of_lt hStep, pack_of_lt hReverse,
    pack_of_lt hSpeed, pack_of_lt (show u.lastF < 2 ^ 10 by omega), pack_of_lt (show u.lastT < 2 ^ 10 by omega),
    pack_of_lt hBand, pack_of_lt (show volts / 500 < 2 ^ 6 by omega)]
  ring

/-- The bytes of an INCIDENT frame (R194). -/
theorem incidentFrame_data {r : Incident} {f t : Nat} (g : GlobalTuning) (hStrikes : r.strikesAfter ≤ 3)
    (hZone : r.zone ≤ 63) (hLow : -16384 ≤ r.position) (hHigh : r.position ≤ 16383) (hf : f ≤ 1023) (ht : t ≤ 1023)
    (hForce : r.force = some (f, t) ∨ (r.force = none ∧ f = 0 ∧ t = 0)) :
    (incidentFrame g r).data.map (·.toNat) =
      [r.chan.toNat * 32 + r.cause.code * 8 + r.strikesAfter * 2, r.owner.toNat * 64 + r.zone,
        twosComplement 16 r.position / 256, twosComplement 16 r.position % 256, f / 256, f % 256, t / 256, t % 256] := by
  have hField : field 16 r.position = twosComplement 16 r.position := field_eq (by omega) (by omega)
  have hPosition : twosComplement 16 r.position < 2 ^ 16 := twosComplement_lt (by omega) (by omega)
  have hPair : (r.force.map (·.1)).getD 0 = f ∧ (r.force.map (·.2)).getD 0 = t := by
    obtain h | ⟨h, rfl, rfl⟩ := hForce <;> simp [h]
  have hChan := Chan.toNat_lt r.chan
  have hCause := r.cause.code_lt
  have hOwner := Slot.toNat_lt r.owner
  simp only [incidentFrame, hField, hPair.1, hPair.2, List.map_append, bytesOf_two hPosition,
    bytesOf_two (show f < 65536 by omega), bytesOf_two (show t < 65536 by omega), List.map_cons,
    byteOf_toNat (show r.chan.toNat * 32 + r.cause.code * 8 + r.strikesAfter * 2 < 256 by omega),
    byteOf_toNat (show r.owner.toNat * 64 + r.zone < 256 by omega), List.cons_append, List.nil_append]

/-- The bytes of an ANSWER, its trailer filled with 0 (R193). -/
theorem answerFrame_data {kind : Nat} {trailer : List Nat} (g : GlobalTuning) (slot : Slot) (r : Reply)
    (hKind : kind < 256) (hLength : trailer.length ≤ 4) (hTrailer : ∀ x ∈ trailer, x < 256) :
    (answerFrame g slot kind r trailer).data.map (·.toNat) = [kind, r.code] ++ (trailer ++ [0, 0, 0, 0]).take 4 := by
  have hByte (i : Nat) : (byteOf (trailer.getD i 0)).toNat = trailer.getD i 0 := by
    refine byteOf_toNat ?_
    by_cases hi : i < trailer.length
    · rw [List.getD_eq_getElem _ _ hi]; exact hTrailer _ (List.getElem_mem hi)
    · rw [List.getD_eq_default _ _ (by omega)]; decide
  simp only [answerFrame, List.map_cons, List.map_nil, hByte, byteOf_toNat hKind, byteOf_toNat r.code_lt,
    List.cons_append, List.nil_append]
  match trailer, hLength with
  | [], _ | [_], _ | [_, _], _ | [_, _, _], _ | [_, _, _, _], _ => rfl
  | _ :: _ :: _ :: _ :: _ :: _, h => simp only [List.length_cons] at h; omega

/-- A data frame of a readout (R195). -/
theorem readoutFrame_segment {n : Snapshot} {k e1 e2 : Nat} (g : GlobalTuning) (hz : n.z ≤ 64) (hk : k < n.z / 2)
    (h1 : e1 < 65536) (h2 : e2 < 65536) (hFirst : n.entries[2 * k]? = some e1)
    (hSecond : n.entries[2 * k + 1]? = some e2) :
    (readoutFrame g n (k + 1)).data.map (·.toNat) =
      [64 + n.chan.toNat, n.chan.toNat, k, e1 / 256, e1 % 256, e2 / 256, e2 % 256] := by
  have hChan := Chan.toNat_lt n.chan
  simp only [readoutFrame, if_neg (Nat.succ_ne_zero k), if_pos (show k + 1 ≤ n.z / 2 by omega), Nat.add_sub_cancel,
    List.getD_eq_getElem?_getD, hFirst, hSecond, Option.getD_some, List.map_append, bytesOf_two h1, bytesOf_two h2,
    List.map_cons, byteOf_toNat (show 64 + n.chan.toNat < 256 by omega),
    byteOf_toNat (show n.chan.toNat < 256 by omega), byteOf_toNat (show k < 256 by omega), List.cons_append,
    List.nil_append]

/-- The end frame of a readout (R195). -/
theorem readoutFrame_end {n : Snapshot} (g : GlobalTuning) (hCheck : n.check < 256) (hLow : -16384 ≤ n.position)
    (hHigh : n.position ≤ 16383) :
    (readoutFrame g n (n.z / 2 + 1)).data.map (·.toNat) =
      [128 + n.chan.toNat, twosComplement 16 n.position / 256, twosComplement 16 n.position % 256,
        (if n.datum = .referenced then 1 else 0) + n.datum.code * 2, n.check] := by
  have hField : field 16 n.position = twosComplement 16 n.position := field_eq (by omega) (by omega)
  have hPosition : twosComplement 16 n.position < 2 ^ 16 := twosComplement_lt (by omega) (by omega)
  have hChan := Chan.toNat_lt n.chan
  have hDatum : (if n.datum = .referenced then 1 else 0) + n.datum.code * 2 < 256 := by
    have := n.datum.code_lt
    split <;> omega
  simp only [readoutFrame, if_neg (Nat.succ_ne_zero _), if_neg (show ¬n.z / 2 + 1 ≤ n.z / 2 by omega), hField,
    List.map_append, bytesOf_two hPosition, List.map_cons, List.map_nil,
    byteOf_toNat (show 128 + n.chan.toNat < 256 by omega), byteOf_toNat hDatum, byteOf_toNat hCheck, List.cons_append,
    List.nil_append]

/-- The fields of INCIDENT_DATA_A, each in its place (R195). -/
theorem incidentDataA_data {r : Incident} {i f t : Nat} (g : GlobalTuning) (slot : Slot) (hi : i ≤ 7)
    (hZone : r.zone ≤ 63) (hLow : -16384 ≤ r.position) (hHigh : r.position ≤ 16383) (hf : f ≤ 1023) (ht : t ≤ 1023)
    (hForce : r.force = some (f, t) ∨ (r.force = none ∧ f = 0 ∧ t = 0)) :
    bigEndian (incidentDataA g slot i r).data = i * 2 ^ 61 + r.chan.toNat * 2 ^ 58 + r.cause.code * 2 ^ 56 +
      r.partTime / 1000 % 32768 * 2 ^ 41 + twosComplement 15 r.position * 2 ^ 26 + r.zone * 2 ^ 20 +
      f * 2 ^ 10 + t := by
  have hField : field 15 r.position = twosComplement 15 r.position := field_eq (by omega) (by omega)
  have hPosition : twosComplement 15 r.position < 2 ^ 15 := twosComplement_lt (by omega) (by omega)
  have hPair : (r.force.map (·.1)).getD 0 = f ∧ (r.force.map (·.2)).getD 0 = t := by
    obtain h | ⟨h, rfl, rfl⟩ := hForce <;> simp [h]
  have hChan := Chan.toNat_lt r.chan
  have hCause := r.cause.code_lt
  have hTime : r.partTime / 1000 % 32768 < 2 ^ 15 := Nat.mod_lt _ (by decide)
  simp only [incidentDataA, hPair.1, hPair.2]
  rw [hField, pack_of_lt (show i < 2 ^ 3 by omega), pack_of_lt (show r.chan.toNat < 2 ^ 3 by omega), pack_of_lt hCause,
    pack_of_lt hTime, pack_of_lt hPosition, pack_of_lt (show r.zone < 2 ^ 6 by omega),
    pack_of_lt (show f < 2 ^ 10 by omega), pack_of_lt (show t < 2 ^ 10 by omega), bigEndian_bytesOf (by omega)]
  ring

/-- The bytes of INCIDENT_DATA_B (R195). -/
theorem incidentDataB_data {r : Incident} {i n : Nat} (g : GlobalTuning) (slot : Slot) (hi : i ≤ 7) (hn : n ≤ 8)
    (hStrikes : r.strikesAfter ≤ 3) (hRough : r.roughness ≤ 3) (hSupply : r.supply ≤ 25575) (hMode : r.mode ≠ .reversal)
    (hOutcome : ∀ x ∈ r.outcome, -16384 ≤ x.2 ∧ x.2 ≤ 16383) :
    let w := twosComplement 16 ((r.outcome.map (·.2)).getD 0)
    (incidentDataB g slot i n r).data.map (·.toNat) =
      [i * 32 + r.roughness * 8 + r.owner.toNat * 2,
        r.mode.incidentCode * 64 + r.strikesAfter * 16 + (r.outcome.map (·.1.code)).getD 0,
        r.supply / 256, r.supply % 256, w / 256, w % 256, n] := by
  intro w
  have hPlace : -16384 ≤ (r.outcome.map (·.2)).getD 0 ∧ (r.outcome.map (·.2)).getD 0 ≤ 16383 := by
    cases h : r.outcome with
    | none => decide
    | some x => exact hOutcome x h
  have hField : field 16 ((r.outcome.map (·.2)).getD 0) = w := field_eq (by omega) (by omega)
  have hWord : w < 2 ^ 16 := twosComplement_lt (by omega) (by omega)
  have hOwner := Slot.toNat_lt r.owner
  have hCode : (r.outcome.map (·.1.code)).getD 0 ≤ 5 := by
    cases r.outcome with
    | none => decide
    | some x => exact (show ∀ o : ReversalOutcome, o.code ≤ 5 by intro o; cases o <;> decide) x.1
  have hModeCode : r.mode.incidentCode ≤ 2 := by
    cases h : r.mode with
    | express | hold | reference => decide
    | reversal => exact absurd h hMode
  simp only [incidentDataB, hField, List.map_append, bytesOf_two hWord, bytesOf_two (show r.supply < 65536 by omega),
    List.map_cons, List.map_nil, byteOf_toNat (show n < 256 by omega),
    byteOf_toNat (show i * 32 + r.roughness * 8 + r.owner.toNat * 2 < 256 by omega),
    byteOf_toNat (show r.mode.incidentCode * 64 + r.strikesAfter * 16 + (r.outcome.map (·.1.code)).getD 0 < 256 by
      omega), List.cons_append, List.nil_append]

/-- The two bytes of a number of 16 bits (R70). -/
theorem byteSum_eq {v : Nat} (h : v < 65536) : byteSum v = v / 256 + v % 256 := by
  rw [byteSum, Nat.mod_eq_of_lt (show v / 256 < 256 by omega)]

/-- Settles O51: every byte sum is that of a 16-bit number, and the check byte is their sum modulo 256. -/
theorem checkByteIsTheByteSum : Obligations.CheckByteIsTheByteSum := by
  unfold Obligations.CheckByteIsTheByteSum
  intro z lo lt entries p flag hLo hLt hEntries hLow hHigh
  have hField : field 16 p = twosComplement 16 p := field_eq (by omega) (by omega)
  have hWord : twosComplement 16 p < 65536 := twosComplement_lt (by omega) (by omega)
  have hValue : (twosComplement 16 p : Int) = if p < 0 then p + 65536 else p := by
    unfold twosComplement
    exact Int.toNat_of_nonneg (by split <;> omega)
  have hSums : entries.map byteSum = entries.map fun e => e / 256 + e % 256 :=
    List.map_congr_left fun e he => byteSum_eq (hEntries e he)
  refine ⟨twosComplement 16 p, hValue, Nat.mod_lt _ (by decide), ?_⟩
  rw [checkByte, hField, byteSum_eq hLo, byteSum_eq hLt, byteSum_eq hWord, hSums]
  push_cast
  refine (Int.mod_modEq _ _).trans ?_
  cases flag <;> exact Int.ModEq.refl _

end Sys2Proof.Machine
end

section
/-! PROOFS. The bus port (chapter 8): the slot that tags a frame, the placement of a frame, the attempts to send, and the
frame that gives way at a full queue. -/

namespace Sys2Proof.Machine
/-! ### The slot table (R166) -/

/-- An identifier matches a slot where it equals the slot's at every position of the mask (R166). -/
theorem SlotEntry.accepts_iff (e : SlotEntry) (id : Ident) :
    e.accepts id = true ↔ e.enabled = true ∧ ∀ k < 11, e.mask.getLsbD k = true → id.getLsbD k = e.ident.getLsbD k := by
  have hBits : ((id ^^^ e.ident) &&& e.mask = 0#11) ↔
      ∀ k < 11, e.mask.getLsbD k = true → id.getLsbD k = e.ident.getLsbD k := by
    constructor
    · intro h k hk hMask
      have hBit := congrArg (·.getLsbD k) h
      simp only [BitVec.getLsbD_and, BitVec.getLsbD_xor, hMask, BitVec.getLsbD_zero, Bool.and_true,
        bne_eq_false_iff_eq] at hBit
      exact hBit
    · intro h
      refine BitVec.eq_of_getLsbD_eq fun k hk => ?_
      cases hMask : e.mask.getLsbD k with
      | false => simp [hMask]
      | true => simp [hMask, h k hk hMask]
  simp only [SlotEntry.accepts, Bool.and_eq_true, beq_iff_eq, hBits]

/-- The first slot with a property (R166). -/
theorem find_slot_iff (p : Slot → Bool) (i : Slot) :
    Slot.all.find? p = some i ↔ p i = true ∧ ∀ j, j.toNat < i.toNat → ¬p j = true := by
  have hForall (P : Slot → Prop) : (∀ j, P j) ↔ P .s0 ∧ P .s1 ∧ P .s2 ∧ P .s3 := by
    constructor
    · exact fun h => ⟨h _, h _, h _, h _⟩
    · rintro ⟨h0, h1, h2, h3⟩ (_ | _ | _ | _) <;> assumption
  rw [hForall]
  cases h0 : p .s0 <;> cases h1 : p .s1 <;> cases h2 : p .s2 <;> cases h3 : p .s3 <;> cases i <;>
    simp [Slot.all, Slot.toNat, h0, h1, h2, h3]

/-- Settles O33: `find?` over the slots in ascending order, with the match bit by bit. -/
theorem firstMatchingSlotTags : Obligations.FirstMatchingSlotTags := by
  unfold Obligations.FirstMatchingSlotTags
  intro slots id i hits
  have hHits (j : Slot) : hits j ↔ (slots.get j).accepts id = true := (SlotEntry.accepts_iff _ id).symm
  simp only [hHits]
  refine ⟨find_slot_iff _ i, ?_⟩
  rw [tagSlot, List.find?_eq_none]
  exact ⟨fun h j => h j (Slot.mem_all j), fun h j _ => h j⟩

/-! ### Reception (R164, R167, R168) -/

/-- A STOP is told by its byte 0 (R167, R192). -/
theorem isStop_iff (d : List Byte) : isStop d = true ↔ d.head? = some 3#8 := by
  unfold isStop kindOf
  cases d with
  | nil => simp
  | cons x l =>
    have hByte : byteAt (x :: l) 0 = x.toNat := rfl
    rw [if_neg (by simp), decide_eq_true_iff, RequestKind.ofCode_eq_some, hByte, List.head?_cons,
      Option.some.injEq, ← BitVec.toNat_inj]
    rfl

section
variable {s : State} {f : BusFrame} {id : Ident} {i : Slot}

theorem delivered_of (hId : f.ident = .standard id) (hRemote : f.remote = false) (hError : f.error = false)
    (hLength : f.data.length ≤ 8) : delivered f = some id := by
  simp [delivered, hId, hRemote, hError, hLength]

theorem delivered_standard (hId : f.ident = .standard id) : delivered f = some id ∨ delivered f = none := by
  unfold delivered
  rw [hId]
  dsimp only
  split
  · exact .inl rfl
  · exact .inr rfl

theorem exec_frameReceived (hId : delivered f = some id) (hTag : tagSlot s.slots id = some i) :
    exec (.frameReceived f) s = .next (place i f.data s) := by
  change execFrameReceived f s = _
  simp only [execFrameReceived, hId, hTag]

theorem exec_frameReceived_undelivered (h : delivered f = none) : exec (.frameReceived f) s = .next s := by
  change execFrameReceived f s = _
  rw [execFrameReceived, h]

theorem exec_frameReceived_untagged (hTag : tagSlot s.slots id = none) (hId : f.ident = .standard id) :
    exec (.frameReceived f) s = .next s := by
  obtain h | h := delivered_standard hId
  · change execFrameReceived f s = _
    simp only [execFrameReceived, h, hTag]
  · exact exec_frameReceived_undelivered h

theorem mayAsk_stop (e : SlotEntry) : e.mayAsk .stop = e.holds .stop := rfl

/-- A STOP that passes its screen (R167). -/
theorem place_stop {mask : Byte} {more : List Byte} (h : (s.slots.get i).holds .stop = true) :
    place i (3#8 :: mask :: more) s = { s with urgent := joinUrgent ⟨i, mask⟩ s.urgent } := by
  have hStop : isStop (3#8 :: mask :: more) = true := (isStop_iff _).2 rfl
  have hMask : byteOf (byteAt (3#8 :: mask :: more) 1) = mask := BitVec.ofNat_toNat ..
  rw [place, if_pos hStop, if_pos ⟨by simp [RequestKind.minLength], h⟩, hMask]

/-- A STOP that fails its screen (R167). -/
theorem place_stop_refused {d : List Byte} (hStop : d.head? = some 3#8)
    (h : d.length < 2 ∨ (s.slots.get i).holds .stop = false) : place i d s = s := by
  rw [place, if_pos ((isStop_iff d).2 hStop), if_neg]
  rintro ⟨hLength, hRight⟩
  simp only [RequestKind.minLength] at hLength
  rw [mayAsk_stop] at hRight
  obtain h | h := h
  · omega
  · exact absurd (h.symm.trans hRight) Bool.false_ne_true

theorem place_normal {d : List Byte} (hStop : d.head? ≠ some 3#8) (hRoom : s.normal.length < Config.normalCap) :
    place i d s = { s with normal := s.normal ++ [⟨i, d⟩] } := by
  rw [place, if_neg (mt (isStop_iff d).1 hStop), if_pos hRoom]

theorem place_full {d : List Byte} (hStop : d.head? ≠ some 3#8) (hFull : 8 ≤ s.normal.length) :
    place i d s = handFrame (answerFrame s.globals i (byteAt d 0) .full [if d = [] then 1 else 0]) s := by
  rw [place, if_neg (mt (isStop_iff d).1 hStop), if_neg (show ¬s.normal.length < Config.normalCap from Nat.not_lt.2 hFull)]

end

/-- Settles O34: the frame is placed by `place`, whose branches are the equations above. -/
theorem receivedFramesArePlaced : Obligations.ReceivedFramesArePlaced := by
  unfold Obligations.ReceivedFramesArePlaced
  refine ⟨fun s f id i hId hRemote hError hLength hTag => ?_, fun s f => ⟨fun h => ?_, fun id hId hTag =>
    exec_frameReceived_untagged hTag hId, fun id i hId hTag hStop h => ?_,
    fun id i hId hRemote hError hLength hTag hStop hFull => ?_⟩⟩
  · have hExec : exec (.frameReceived f) s = .next (place i f.data s) :=
      exec_frameReceived (delivered_of hId hRemote hError hLength) hTag
    refine ⟨fun hStop hRoom => ?_, fun mask more hData hRight hRoom => ?_,
      fun mask more front newest hData hRight hUrgent hFront => ?_⟩
    · rw [hExec, place_normal hStop hRoom]; exact ⟨_, rfl, rfl, rfl⟩
    · rw [hExec, hData, place_stop hRight]
      exact ⟨_, rfl, if_pos hRoom, rfl⟩
    · rw [hExec, hData, place_stop hRight]
      refine ⟨_, rfl, ?_, rfl⟩
      have hFull : ¬s.urgent.length < Config.urgentCap := by rw [hUrgent]; simp [hFront, Config.urgentCap]
      change joinUrgent _ s.urgent = _
      rw [joinUrgent, if_neg hFull, hUrgent, List.getLast?_concat, List.dropLast_concat]
  · refine exec_frameReceived_undelivered ?_
    unfold delivered
    obtain ⟨id, h⟩ | h | h := h
    · rw [h]
    · split <;> simp [h]
    · split <;> simp [h]
  · obtain hDelivered | hNone := delivered_standard hId
    · rw [exec_frameReceived hDelivered hTag, place_stop_refused hStop h]
    · exact exec_frameReceived_undelivered hNone
  · rw [exec_frameReceived (delivered_of hId hRemote hError hLength) hTag, place_full hStop hFull]
    refine ⟨_, rfl, fun hRoom => ?_, by rw [handFrame_eq]⟩
    simp only [Config.txCap] at hRoom
    rw [handFrame_room (by omega)]
    exact ⟨_, (mem_txInsert _ _ _).2 (.inl rfl), rfl⟩

/-! ### Attempts to send (R174, R175) -/

section
variable {s : State} {e : TxEntry} {x y : List TxEntry} {b : Frame}

/-- No attempt runs on the places of the list. -/
def resting (q : List TxEntry) : Prop := ∀ z ∈ q, z.onBus = none ∧ z.renewed = false

theorem map_resting {q : List TxEntry} (h : resting q) :
    q.map (fun e => { e with onBus := none, renewed := false }) = q := by
  conv_rhs => rw [← List.map_id q]
  refine List.map_congr_left fun z hz => ?_
  obtain ⟨hBus, hRenewed⟩ := h z hz
  rw [← hBus, ← hRenewed]; rfl

theorem filter_resting {q : List TxEntry} (h : resting q) : q.filter (fun e => e.onBus.isNone || e.renewed) = q :=
  List.filter_eq_self.2 fun z hz => by simp [(h z hz).1]

theorem any_resting {q : List TxEntry} (h : resting q) (p : TxEntry → Bool) :
    q.any (fun e => e.onBus.isSome && !e.renewed && p e) = false := by
  rw [List.any_eq_false]
  intro z hz
  simp [(h z hz).1]

theorem inTransmission_isSome (hQueue : s.txQueue = x ++ e :: y) (hBus : e.onBus = some b) :
    s.inTransmission.isSome = true := by
  rw [State.inTransmission, hQueue, List.find?_isSome]
  exact ⟨e, by simp, by simp [hBus]⟩

theorem inTransmission_isNone {q : List TxEntry} (hQueue : s.txQueue = q) (h : ∀ z ∈ q, z.onBus = none) :
    s.inTransmission.isNone = true := by
  rw [State.inTransmission, hQueue, Option.isNone_iff_eq_none, List.find?_eq_none]
  exact fun z hz => by simp [h z hz]

/-- The engine once the frame of the place has left: released with its end frame (R69). -/
def leftEngine (e : TxEntry) (r : Option Readout) : Option Readout :=
  r.bind fun r => if e.frame.tag = .readout ∧ e.renewed = false ∧ r.snap.frames ≤ r.handed then none else some r

/-- The queue once the attempt on the place has ended (R174). -/
def leftQueue (x y : List TxEntry) (e : TxEntry) : List TxEntry :=
  if e.renewed then x ++ ⟨e.frame, none, false⟩ :: y else x ++ y

theorem readoutDeparted_of_left (hTag : e.frame.tag = .readout) (hRenewed : e.renewed = false) :
    readoutDeparted s = { s with readout := leftEngine e s.readout } := by
  unfold readoutDeparted leftEngine
  split
  · next r hr =>
    simp only [hr, Option.bind_some, hTag, hRenewed, true_and]
    split
    · rfl
    · rw [← hr]
  · next hr => rw [hr, Option.bind_none, ← hr]

theorem leftEngine_of_kept (h : ¬(e.frame.tag = .readout ∧ e.renewed = false)) (r : Option Readout) :
    leftEngine e r = r := by
  cases r with
  | none => rfl
  | some r => exact if_neg fun hLeft => h ⟨hLeft.1, hLeft.2.1⟩

/-- The end of an attempt on the one place it runs on (R69, R174). -/
theorem txLeave_of_attempt (hQueue : s.txQueue = x ++ e :: y) (hBus : e.onBus = some b) (hRest : resting (x ++ y)) :
    txLeave s = { s with txQueue := leftQueue x y e, readout := leftEngine e s.readout } := by
  have hx : resting x := fun z hz => hRest z (List.mem_append_left y hz)
  have hy : resting y := fun z hz => hRest z (List.mem_append_right x hz)
  have hLeft : ((x ++ e :: y).filter fun e => e.onBus.isNone || e.renewed).map
      (fun e => { e with onBus := none, renewed := false }) = leftQueue x y e := by
    rw [List.filter_append, List.map_append, filter_resting hx, map_resting hx, leftQueue, List.filter_cons]
    cases e.renewed with
    | false => simp [hBus, filter_resting hy, map_resting hy]
    | true => simp [filter_resting hy, map_resting hy]
  have hGone : (x ++ e :: y).any (fun e => e.onBus.isSome && !e.renewed && decide (e.frame.tag = .readout)) =
      (!e.renewed && decide (e.frame.tag = .readout)) := by
    rw [List.any_append, List.any_cons, any_resting hx, any_resting hy, hBus]
    simp
  unfold txLeave
  rw [hQueue, hLeft, hGone]
  by_cases h : e.frame.tag = .readout ∧ e.renewed = false
  · rw [if_pos (by simp [h]), readoutDeparted_of_left h.1 h.2]
  · rw [if_neg (by simpa [not_and, and_comm] using h), leftEngine_of_kept h]

theorem raiseErrors_counted (h : s.txErrors + 1 < 16) : raiseErrors s = { s with txErrors := s.txErrors + 1 } :=
  if_pos h

theorem raiseErrors_quiet (h : ¬s.txErrors + 1 < 16) :
    raiseErrors s = { s with txErrors := 0, quietTimer := some (s.ms + 100) } := if_neg h

end

/-- Settles O35: the offer puts the head on the bus, and each end of an attempt acts on the one place it runs on. -/
theorem attemptsEnd : Obligations.AttemptsEnd := by
  unfold Obligations.AttemptsEnd
  refine ⟨fun s e q hQueue hFree hQuiet => ?_, fun s e x y b hQueue hBus hRest => ?_⟩
  · refine ⟨{ s with txQueue := { e with onBus := some e.frame, renewed := false } :: q }, ?_, rfl, rfl⟩
    change execTxOffer s = _
    simp only [execTxOffer, hQueue]
    rw [if_pos ⟨inTransmission_isNone hQueue hFree, by rw [hQuiet]; rfl⟩]
  · intro engine
    have hSome := inTransmission_isSome hQueue hBus
    have hLeave := txLeave_of_attempt hQueue hBus hRest
    refine ⟨⟨_, if_pos hSome, ?_⟩, ⟨_, if_pos hSome, ?_, rfl⟩, ⟨_, if_pos hSome, ?_⟩⟩
    · rw [hLeave]; exact ⟨rfl, rfl, rfl, rfl⟩
    · change s.txQueue.map _ = _
      have hx : resting x := fun z hz => hRest z (List.mem_append_left y hz)
      have hy : resting y := fun z hz => hRest z (List.mem_append_right x hz)
      rw [hQueue, List.map_append, List.map_cons, map_resting hx, map_resting hy]
    · rw [hLeave]
      by_cases hCount : s.txErrors + 1 < 16
      · rw [raiseErrors_counted (by exact hCount)]
        exact ⟨rfl, rfl, by rw [if_pos hCount]; exact ⟨rfl, rfl⟩, rfl⟩
      · rw [raiseErrors_quiet (by exact hCount)]
        exact ⟨rfl, rfl, by rw [if_neg hCount]; exact ⟨rfl, rfl⟩, rfl⟩

/-! ### The frame that gives way (R173) -/

theorem txEvict_eq_none {r : Nat} {q : List TxEntry} (h : ∀ e ∈ q, ¬(e.onBus = none ∧ e.frame.tag.rank < r)) :
    txEvict r q = none := by
  induction q with
  | nil => rfl
  | cons e q ih =>
    rw [txEvict, ih fun z hz => h z (List.mem_cons_of_mem e hz)]
    exact if_neg fun hGives => h e List.mem_cons_self ⟨hGives.1, hGives.2.1⟩

/-- The last frame that gives way is the one evicted, where all behind it are in transmission (R173). -/
theorem txEvict_eq_some {r : Nat} {x y : List TxEntry} {e : TxEntry} (hBus : e.onBus = none)
    (hRank : e.frame.tag.rank < r) (hBehind : ∀ z ∈ y, z.onBus.isSome = true) :
    txEvict r (x ++ e :: y) = some (e, x ++ y) := by
  induction x with
  | nil =>
    have hNone : txEvict r y = none := txEvict_eq_none fun z hz h => by simpa [h.1] using hBehind z hz
    rw [List.nil_append, List.nil_append, txEvict, hNone]
    exact if_pos ⟨hBus, hRank, List.all_eq_true.2 hBehind⟩
  | cons w x ih => rw [List.cons_append, List.cons_append, txEvict, ih]

/-- Settles O36: the queue is ordered by class, so behind the last frame that gives way every frame is in transmission. -/
theorem fullQueueEvicts : Obligations.FullQueueEvicts := by
  unfold Obligations.FullQueueEvicts
  intro s f hOrdered hFull hTag class_ gives
  have hClass : class_ = FrameTag.rank := by
    funext x; cases x <;> rfl
  have hNoRoom : ¬s.txQueue.length < Config.txCap := by rw [hFull]; decide
  simp only [gives, hClass]
  refine ⟨fun hNone => ?_, fun x e y hQueue hGives hLast => ?_⟩
  · rw [handFrame, if_neg hNoRoom, txEvict_eq_none hNone]
  · obtain ⟨hBus, hRank⟩ := hGives
    obtain ⟨-, hRanked, -⟩ := hOrdered
    rw [hQueue, List.pairwise_append, List.pairwise_cons] at hRanked
    obtain ⟨-, ⟨hBelow, -⟩, -⟩ := hRanked
    have hBehind (z : TxEntry) (hz : z ∈ y) : z.onBus.isSome = true := by
      rw [← Option.ne_none_iff_isSome]
      exact fun hFree => hLast z hz ⟨hFree, (hBelow z hz).trans_lt hRank⟩
    have hEvict : txEvict f.tag.rank s.txQueue = some (e, x ++ y) := by
      rw [hQueue]; exact txEvict_eq_some hBus hRank hBehind
    have hHand : (handFrame f s).txQueue = txInsert f (x ++ y) := by
      rw [handFrame, if_neg hNoRoom, hEvict]
      dsimp only
      split
      · rw [readoutDeparted_txQueue]
      · rfl
    have hLength := txEvict_length hEvict
    rw [hHand, txInsert_length]
    exact ⟨rfl, by omega, (mem_txInsert _ _ _).2 (.inl rfl)⟩

end Sys2Proof.Machine
end

section
/-! PROOFS. The STATUS frames (R176, R177) and the screen of the dispatcher (R170). -/

namespace Sys2Proof.Machine
section
variable {s u v : State} {c : Chan}

/-! ### STATUS frames -/

/-- Behind frames of its class or a higher one a frame joins at the end (R172). -/
theorem txInsert_last {f : Frame} {q : List TxEntry} (h : ∀ e ∈ q, f.tag.rank ≤ e.frame.tag.rank) :
    txInsert f q = q ++ [⟨f, none, false⟩] := by
  induction q with
  | nil => rfl
  | cons e q ih =>
    rw [txInsert, if_pos (h e List.mem_cons_self), ih fun z hz => h z (List.mem_cons_of_mem e hz)]; rfl

/-- The queue of the STATUS frames of some channels, as the part stands (R173). -/
def statusQueue (s : State) (l : List Chan) : List TxEntry := l.map fun c => ⟨statusFrame s c, none, false⟩

/-- A STATUS joins the STATUS frames of other channels at the end (R172, R173). -/
theorem flushOne_statusQueue {l : List Chan} (hDue : (u.ch c).statusDue = true) (hQueue : u.txQueue = statusQueue s l)
    (hFrame : statusFrame u c = statusFrame s c) (hNew : c ∉ l) (hRoom : l.length < 12) :
    (flushOne c u).txQueue = statusQueue s (l ++ [c]) := by
  set w := u.modCh c fun ch => { ch with statusDue := false } with hw
  have hwQueue : w.txQueue = statusQueue s l := hQueue
  have hwFrame : statusFrame w c = statusFrame s c :=
    (statusFrame_congr (t := w) (s := u) (by rw [hw, State.ch_modCh_self]) rfl rfl rfl).trans hFrame
  have hNone : w.txQueue.any (fun e => decide (e.frame.tag = .status c)) = false := by
    rw [hwQueue, List.any_eq_false]
    intro e he
    obtain ⟨d, hd, rfl⟩ := List.mem_map.1 he
    have hne : FrameTag.status d ≠ .status c := fun h => hNew (by cases h; exact hd)
    simpa [statusFrame] using hne
  have hShort : w.txQueue.length < Config.txCap := by rw [hwQueue]; simpa [statusQueue, Config.txCap] using hRoom
  have hLast : txInsert (statusFrame s c) (statusQueue s l) = statusQueue s l ++ [⟨statusFrame s c, none, false⟩] := by
    refine txInsert_last fun e he => ?_
    obtain ⟨d, -, rfl⟩ := List.mem_map.1 he
    exact Nat.le_refl 1
  unfold flushOne
  rw [if_pos hDue, ← hw, handStatus, hNone, if_neg Bool.false_ne_true, if_pos hShort]
  change txInsert (statusFrame w c) w.txQueue = _
  rw [hwFrame, hwQueue, hLast, statusQueue, statusQueue, List.map_append]; rfl

/-- The STATUS frames of some channels, all due, are handed one after the other in their order (R197). -/
theorem foldl_flushOne {r : List Chan} {l : List Chan} (hNodup : (l ++ r).Nodup) (hRoom : (l ++ r).length ≤ 12)
    (hDue : ∀ c ∈ r, (u.ch c).statusDue = true) (hQueue : u.txQueue = statusQueue s l)
    (hFrame : ∀ c, statusFrame u c = statusFrame s c) :
    (r.foldl (fun s c => flushOne c s) u).txQueue = statusQueue s (l ++ r) := by
  induction r generalizing l u with
  | nil => rw [List.append_nil]; exact hQueue
  | cons c r ih =>
    rw [List.length_append, List.length_cons] at hRoom
    have hSplit : (l ++ [c]) ++ r = l ++ c :: r := by simp
    have hNew : c ∉ l := fun hc => (List.nodup_append.1 hNodup).2.2 c hc c List.mem_cons_self rfl
    have hFirst : c ∉ r := (List.nodup_cons.1 (List.nodup_append.1 hNodup).2.1).1
    rw [List.foldl_cons, ← hSplit]
    refine ih (by rw [hSplit]; exact hNodup) (by simp only [List.length_append, List.length_singleton]; omega)
      (fun d hd => ?_) (flushOne_statusQueue (hDue c List.mem_cons_self) hQueue (hFrame c) hNew (by omega))
      fun d => by rw [statusFrame_flushOne, hFrame]
    have hne : d ≠ c := fun h => hFirst (h ▸ hd)
    rw [flushOne_ch, if_neg hne]
    exact hDue d (List.mem_cons_of_mem c hd)

theorem flush_statusQueue (hDue : ∀ c, (u.ch c).statusDue = true) (hQueue : u.txQueue = []) :
    (flush u).txQueue = statusQueue u Chan.all := by
  rw [flush_eq_flushOne]
  exact foldl_flushOne (l := []) (by decide) (by decide) (fun c _ => hDue c) hQueue fun _ => rfl

theorem statusFrame_flush (u : State) (c : Chan) : statusFrame (flush u) c = statusFrame u c := by
  refine statusFrame_congr ?_ ?_ ?_ ?_
  · rw [flush_ch]
  all_goals rw [flush_eq]

/-- The state code, the mode code, the owner code and the band code of a STATUS frame, written out (R194, R196). -/
theorem ownerCode_eq (o : Option Owner) : ownerCode o = match o with
    | none => 0
    | some o => if o.pending then o.slot.toNat + 5 else o.slot.toNat + 1 := by
  cases o with
  | none => rfl
  | some o => simp only [ownerCode]; split <;> rfl

end

/-- Settles O37: the marks of all six channels, or of the one asked for, and the bits of the frame by
`statusBits_eq`. -/
theorem statusIsHanded : Obligations.StatusIsHanded := by
  unfold Obligations.StatusIsHanded
  refine ⟨fun s hs => ?_, fun s slot b rest c hs hTakes hChan => ?_, fun s c hBounds hVolts => ?_, by decide⟩
  · set w : State := { s.waitUntil s.statusTimer with
      statusTimer := (s.waitUntil s.statusTimer).ms + s.globals.statusPeriod } with hw
    set u := forChans (fun c s => s.modCh c fun ch => { ch with statusDue := true }) w with hu
    have huRest : u = { w with channels := u.channels } := by rw [hu, forChans_modCh]
    have huCh (c : Chan) : u.ch c = { s.ch c with statusDue := true } := by
      rw [hu, forChans_modCh]; exact PerChan.get_ofFn _ c
    have huDue (c : Chan) : (u.ch c).statusDue = true := by rw [huCh]
    have huQueue : u.txQueue = s.txQueue := by rw [huRest]; rfl
    have hFlush := flush_rest u
    refine ⟨flush u, rfl, ?_, ?_, fun c => ?_, fun c => ?_, fun hEmpty => ?_, ?_⟩
    · rw [hFlush, huRest]; rfl
    · rw [hFlush, huRest]; rfl
    · rw [flush_ch, huCh, ← hs.due c]
    · exact flush_statusHanded (huDue c) (by rw [huQueue]; omega)
    · rw [flush_statusQueue huDue (huQueue.trans hEmpty), statusQueue]
      exact List.map_congr_left fun c _ => by rw [statusFrame_flush]
    · rw [hFlush, huRest]; rfl
  · set w := s.taken .query rest with hw
    set u := w.modCh c fun ch => { ch with statusDue := true } with hu
    have hHandle : handleQuery slot b w = (u, .nothing) := by simp only [handleQuery, hChan, hu]
    have hwEq : w = { s with normal := rest } := State.taken_of_free (by decide)
    have huCh : u.ch c = { s.ch c with statusDue := true } := by rw [hu, State.ch_modCh_self, hw, State.taken_ch]
    have hOne : oneChannel c w u := modCh_oneChannel c _ w
    refine ⟨flush u, by rw [exec_query hTakes, hHandle, conclude_nothing], ?_, ?_, fun e he hTag => ?_, fun d => ?_, ?_⟩
    · rw [hOne.flush_part, hwEq]
    · exact flush_statusHanded (by rw [huCh]) (by rw [hu, State.modCh_txQueue, hw, State.taken_txQueue]; omega)
    · rw [mem_flush_of_ne (by rw [hTag]; exact fun _ => nofun)] at he
      rw [hu, State.modCh_txQueue, hw, State.taken_txQueue] at he
      exact he
    · by_cases hd : d = c
      · rw [hd, flush_ch, huCh, ← hs.due c]
      · exact flush_ch_of_kept hs (by rw [hOne.others d hd, hw, State.taken_ch])
    · rw [hOne.flush_part, hwEq]; rfl
  · intro u f
    obtain ⟨hBits, hFits⟩ := statusBits_eq s.band hBounds hVolts
    refine ⟨rfl, rfl, bytesOf_length 8 _, (bigEndian_bytesOf hFits).trans (hBits.trans ?_)⟩
    have hState : u.mstate.code = match u.mstate with
      | .idle => 0 | .queued => 1 | .starting => 2 | .running => 3 | .braking => 4 | .reversing => 5
      | .paused => 6 := by cases u.mstate <;> rfl
    have hMode : (u.motion.map (·.mode.statusCode)).getD 0 = match u.motion.map (·.mode) with
      | none => 0 | some .express => 1 | some .hold => 2 | some .reference => 3 | some .reversal => 4 := by
      cases u.motion with
      | none => rfl
      | some m => cases h : m.mode <;> simp [h, Mode.statusCode]
    have hDatum : u.datum.code = match u.datum with
      | .unreferenced => 0 | .seeking => 1 | .referenced => 2 := by cases u.datum <;> rfl
    have hBand : s.band.code = match s.band with
      | .normal => 0 | .low => 1 | .high => 2 := by cases s.band <;> rfl
    have hFlag (x : Bool) (n : Nat) : x.toNat * n = if x then n else 0 := by cases x <;> simp
    rw [hState, hMode, hDatum, hBand, hFlag, hFlag, hFlag, ownerCode_eq] <;> rfl

/-! ### The screen of the dispatcher (R169, R170) -/

section
variable {s : State} {slot : Slot} {b : List Byte} {rest : List Request}

/-- What a request that is only answered leaves: the answer stands in the queue, and every channel and every other field of
the part is as it was but for the FIFO. -/
theorem refused_leaves {t : State} {kind : Nat} {r : Reply} {trailer : List Nat} (hs : s.noneDue)
    (ht : t = conclude slot kind ({ s with normal := rest }, .answer r trailer)) :
    t.normal = rest ∧ answered s t slot kind r trailer ∧ channelsKept s t ∧
      { t with normal := s.normal, channels := s.channels, txQueue := s.txQueue, readout := s.readout } = s := by
  rw [ht]
  exact ⟨by rw [conclude_rest], conclude_answered slot kind r trailer (Nat.le_succ _),
    conclude_channelsKept slot kind r trailer hs fun _ => rfl, by rw [conclude_rest]⟩

theorem kindOf_of_ne_nil (h : b ≠ []) : kindOf b = RequestKind.ofCode (byteAt b 0) :=
  if_neg (mt List.length_eq_zero_iff.1 h)

/-- No kind has the code 0 or a code above 16 (R192). -/
theorem kindOf_unknown (h : b = [] ∨ byteAt b 0 = 0 ∨ 16 < byteAt b 0) : kindOf b = none := by
  by_cases hb : b = []
  · rw [hb]; rfl
  · rw [kindOf_of_ne_nil hb, Option.eq_none_iff_forall_ne_some]
    intro k hk
    rw [RequestKind.ofCode_eq_some] at hk
    have hCode : 1 ≤ k.code ∧ k.code ≤ 16 := by cases k <;> decide
    obtain h | h | h := h
    · exact hb h
    all_goals omega

theorem exec_unknownRequest (hUrgent : s.urgent = []) (hNormal : s.normal = ⟨slot, b⟩ :: rest) (h : kindOf b = none) :
    exec .unknownRequest s = .next (conclude slot (byteAt b 0)
      ({ s with normal := rest }, .answer .malformed [if b = [] then 1 else 0])) := by
  change execUnknownRequest s = _
  unfold execUnknownRequest
  split
  · next r later _ hFirst =>
    cases hNormal.symm.trans hFirst
    exact if_pos h
  · next hNone => exact absurd hNormal (hNone _ _ hUrgent)

/-- A request that is too short or whose slot lacks the right is refused (R170). -/
theorem serve_refused {k : RequestKind} (f : Slot → List Byte → State → State × Sends) (hUrgent : s.urgent = [])
    (hNormal : s.normal = ⟨slot, b⟩ :: rest) (hb : b ≠ []) (hCode : byteAt b 0 = k.code)
    (h : b.length < k.minLength b ∨ (s.slots.get slot).mayAsk k = false) :
    serve k f s = conclude slot k.code ({ s with normal := rest },
      .answer (if b.length < k.minLength b then .malformed else .denied) []) := by
  have hKind : kindOf b = some k := by rw [kindOf_of_ne_nil hb, RequestKind.ofCode_eq_some, hCode]
  have hScreen : screened k f ⟨slot, b⟩ { s with normal := rest } = ({ s with normal := rest },
      .answer (if b.length < k.minLength b then .malformed else .denied) []) := by
    unfold screened
    by_cases hLength : b.length < k.minLength b
    · rw [if_pos hLength, if_pos hLength]
    · have hRight := h.resolve_left hLength
      rw [if_neg hLength, if_neg hLength, if_pos (by rw [hRight]; rfl)]
  unfold serve
  split
  · next r later _ hFirst =>
    cases hNormal.symm.trans hFirst
    rw [if_pos hKind, hScreen, hCode]
  · next hNone => exact absurd hNormal (hNone _ _ hUrgent)

/-- A right a kind needs and the slot lacks (R110, R170). -/
theorem mayAsk_of_missing {e : SlotEntry} {k : RequestKind}
    (h : ∃ n ∈ k.right.map Right.bit, e.rights.getLsbD n = false) : e.mayAsk k = false := by
  obtain ⟨n, hn, hMissing⟩ := h
  obtain ⟨r, hr, rfl⟩ := Option.map_eq_some_iff.1 (Option.mem_def.1 hn)
  simp only [SlotEntry.mayAsk, hr]
  exact hMissing

/-- The commands that take a request, by the code, the length and the right of their kind (R170, R192). -/
theorem requestRow {kind len : Nat} {cmd : Instr} {right : Option Nat}
    (h : (kind, cmd, len, right) ∈ ([
      (1, .move, if byteAt b 3 = 3 then 6 else 4, some 0), (2, .group, 3, some 0), (4, .reference, 2, some 4),
      (5, .lockout, 4, some 3), (6, .query, 2, none), (7, .vehicle, 2, some 2), (8, .profileRead, 2, some 4),
      (9, .restoreBegin, 7, some 4), (10, .restoreData, 7, some 4), (11, .restoreEnd, 5, some 4),
      (12, .incidentRead, 2, some 4), (13, .clear, 3, some 4), (14, .config, 1, some 4), (15, .start, 1, some 4),
      (16, .tune, 5, some 4)] : List (Nat × Instr × Nat × Option Nat))) :
    ∃ k f, (∀ s, exec cmd s = .next (serve k f s)) ∧ kind = k.code ∧ len = k.minLength b ∧
      right = k.right.map Right.bit := by
  simp only [List.mem_cons, List.not_mem_nil, or_false, Prod.mk.injEq] at h
  obtain h | h | h | h | h | h | h | h | h | h | h | h | h | h | h := h <;> obtain ⟨rfl, rfl, rfl, rfl⟩ := h
  · exact ⟨.move, handleMove, fun _ => rfl, rfl, rfl, rfl⟩
  · exact ⟨.group, handleGroup, fun _ => rfl, rfl, rfl, rfl⟩
  · exact ⟨.reference, handleReference, fun _ => rfl, rfl, rfl, rfl⟩
  · exact ⟨.lockout, handleLockout, fun _ => rfl, rfl, rfl, rfl⟩
  · exact ⟨.query, handleQuery, fun _ => rfl, rfl, rfl, rfl⟩
  · exact ⟨.vehicle, handleVehicle, fun _ => rfl, rfl, rfl, rfl⟩
  · exact ⟨.profileRead, handleProfileRead, fun _ => rfl, rfl, rfl, rfl⟩
  · exact ⟨.restoreBegin, handleRestoreBegin, fun _ => rfl, rfl, rfl, rfl⟩
  · exact ⟨.restoreData, handleRestoreData, fun _ => rfl, rfl, rfl, rfl⟩
  · exact ⟨.restoreEnd, handleRestoreEnd, fun _ => rfl, rfl, rfl, rfl⟩
  · exact ⟨.incidentRead, handleIncidentRead, fun _ => rfl, rfl, rfl, rfl⟩
  · exact ⟨.clear, handleClear, fun _ => rfl, rfl, rfl, rfl⟩
  · exact ⟨.config, handleConfig, fun _ => rfl, rfl, rfl, rfl⟩
  · exact ⟨.start, handleStart, fun _ => rfl, rfl, rfl, rfl⟩
  · exact ⟨.tune, handleTune, fun _ => rfl, rfl, rfl, rfl⟩

/-- A byte that a trailer ends before is 0 (R193). -/
theorem answered_padded {t : State} {kind : Nat} {r : Reply} (h : answered s t slot kind r []) :
    answered s t slot kind r [0] := h

end

/-- Settles O60: the screen refuses a request before its handling, and a refusal is an answer and nothing else. -/
theorem screenRefuses : Obligations.ScreenRefuses := by
  unfold Obligations.ScreenRefuses
  refine ⟨fun s slot b rest hs hUrgent hNormal h =>
      ⟨_, exec_unknownRequest hUrgent hNormal (kindOf_unknown h), refused_leaves hs rfl⟩,
    fun s slot b rest kind len cmd right hs hUrgent hNormal hb hByte hRow h => ?_,
    fun g slot kind r trailer hKind hLength hTrailer =>
      ⟨rfl, rfl, answerFrame_data g slot r hKind hLength hTrailer⟩, by decide⟩
  obtain ⟨k, f, hExec, rfl, rfl, rfl⟩ := requestRow hRow
  have hServe := serve_refused f hUrgent hNormal hb hByte (h.imp_right mayAsk_of_missing)
  obtain ⟨hRest, hAnswered, hKept, hFrame⟩ := refused_leaves hs hServe
  exact ⟨_, hExec s, hRest, answered_padded hAnswered, hKept, hFrame⟩

end Sys2Proof.Machine
end

section
/-! PROOFS. The requests of the incident list, of clearing, of the part state and of the tuning table (R156, R183 to
R189). -/

namespace Sys2Proof.Machine
section
variable {s u v : State} {c : Chan} {slot : Slot} {b : List Byte} {rest : List Request}

/-! ### Frames handed, and changes of several channels -/

/-- A frame joins between the frames of its class or a higher one and the lower ones (R172). -/
theorem txInsert_split (f : Frame) (q : List TxEntry) : ∃ x y, q = x ++ y ∧ txInsert f q = x ++ ⟨f, none, false⟩ :: y ∧
    (∀ e ∈ x, f.tag.rank ≤ e.frame.tag.rank) ∧ ∀ e ∈ y.head?, e.frame.tag.rank < f.tag.rank := by
  induction q with
  | nil => exact ⟨[], [], rfl, rfl, nofun, nofun⟩
  | cons e q ih =>
    by_cases h : f.tag.rank ≤ e.frame.tag.rank
    · obtain ⟨x, y, hq, hInsert, hx, hy⟩ := ih
      refine ⟨e :: x, y, by rw [hq]; rfl, by rw [txInsert, if_pos h, hInsert]; rfl, ?_, hy⟩
      exact fun z hz => (List.mem_cons.1 hz).elim (fun hEq => hEq ▸ h) (hx z)
    · exact ⟨[], e :: q, rfl, if_neg h, nofun, fun z hz => by cases hz; omega⟩

theorem txInsert_append {f : Frame} {x : List TxEntry} (h : ∀ e ∈ x, f.tag.rank ≤ e.frame.tag.rank) (y : List TxEntry) :
    txInsert f (x ++ y) = x ++ txInsert f y := by
  induction x with
  | nil => rfl
  | cons e x ih =>
    rw [List.cons_append, txInsert, if_pos (h e List.mem_cons_self), ih fun z hz => h z (List.mem_cons_of_mem e hz)]; rfl

/-- A frame that is handed brings no other frame into the queue (R173). -/
theorem mem_handFrame {f : Frame} {e : TxEntry} (h : e ∈ (handFrame f s).txQueue) :
    e = ⟨f, none, false⟩ ∨ e ∈ s.txQueue := by
  unfold handFrame at h
  split at h
  · exact (mem_txInsert _ _ _).1 h
  · split at h
    · next x q hEvict =>
      obtain ⟨a, d, hQueue, rfl, -⟩ := txEvict_some hEvict
      have hIn : e ∈ txInsert f (a ++ d) := by
        split at h
        · rwa [readoutDeparted_txQueue] at h
        · exact h
      refine ((mem_txInsert _ _ _).1 hIn).imp_right fun he => ?_
      rw [hQueue]
      exact (List.mem_append.1 he).elim (List.mem_append_left _) fun hd =>
        List.mem_append_right _ (List.mem_cons_of_mem x hd)
    · exact .inr h

theorem forChans_modEach (g : Chan → Channel → Channel) (s : State) :
    forChans (fun c s => s.modCh c (g c)) s = { s with channels := PerChan.ofFn fun c => g c (s.ch c) } := rfl

theorem State.modCh_id (s : State) (c : Chan) : s.modCh c (fun x => x) = s := by
  unfold State.modCh State.setCh State.ch
  rw [PerChan.set_get_self]

/-- A change of the channels of a mask (R189). -/
theorem forChans_masked (p : Chan → Bool) (f : Channel → Channel) (s : State) :
    forChans (fun c s => if p c then s.modCh c f else s) s =
      { s with channels := PerChan.ofFn fun c => if p c then f (s.ch c) else s.ch c } := by
  have hEach : (fun (c : Chan) (s : State) => if p c then s.modCh c f else s) =
      fun c s => s.modCh c fun x => if p c then f x else x := by
    funext c s
    cases p c with
    | true => rfl
    | false => exact (State.modCh_id s c).symm
  rw [hEach, forChans_modEach (fun c x => if p c then f x else x)]

/-- A request of the SERVICE right restarts the config idle timer in CONFIG (R183). -/
theorem State.taken_of_service {k : RequestKind} (hk : k.right = some .service) (rest : List Request) :
    s.taken k rest = { s with
      normal := rest, configTimer := if s.partState = .config then some (s.ms + 3000) else s.configTimer } := by
  by_cases h : s.partState = .config
  · rw [State.taken_of_config h hk, if_pos h]
  · have hRun : s.partState = .run := by
      cases hPart : s.partState with
      | config => exact absurd hPart h
      | run => rfl
    rw [State.taken_of_run hRun, if_neg h]

/-! ### INCIDENT_READ (R156) -/

theorem handleIncidentRead_some {r : Incident} (h : s.incidents[byteAt b 1]? = some r) :
    handleIncidentRead slot b s = (s, .frames [incidentDataA s.globals slot (byteAt b 1) r,
      incidentDataB s.globals slot (byteAt b 1) s.incidents.length r]) := by
  simp only [handleIncidentRead, h]

theorem handleIncidentRead_none (h : s.incidents[byteAt b 1]? = none) :
    handleIncidentRead slot b s = (s, .answer .malformed [byteAt b 1, s.incidents.length]) := by
  simp only [handleIncidentRead, h]

/-- Two frames of the ANSWER class handed one after the other, the first ahead of the second (R172). -/
theorem handFrame_two {f g : Frame} (hf : f.tag.rank = 2) (hg : g.tag.rank = 2) (hRoom : s.txQueue.length + 2 ≤ 12) :
    ∃ x y z, (handFrame g (handFrame f s)).txQueue = x ++ ⟨f, none, false⟩ :: y ++ ⟨g, none, false⟩ :: z := by
  obtain ⟨x, w, -, hFirst, hx, -⟩ := txInsert_split f s.txQueue
  obtain ⟨y, z, -, hSecond, -⟩ := txInsert_split g w
  have hOne := handFrame_room (f := f) (s := s) (by omega)
  have hTwo := handFrame_room (f := g) (s := handFrame f s) (by rw [hOne]; simp only [txInsert_length]; omega)
  have hBefore : ∀ e ∈ x ++ [(⟨f, none, false⟩ : TxEntry)], g.tag.rank ≤ e.frame.tag.rank := by
    intro e he
    obtain he | he := List.mem_append.1 he
    · have := hx e he; omega
    · rw [List.mem_singleton.1 he]; exact (hg.trans hf.symm).le
  refine ⟨x, y, z, ?_⟩
  rw [hTwo, hOne]
  change txInsert g (txInsert f s.txQueue) = _
  have hSplit : txInsert f s.txQueue = (x ++ [⟨f, none, false⟩]) ++ w := by rw [hFirst]; simp
  rw [hSplit, txInsert_append hBefore, hSecond]
  simp

end

/-- Settles O54: the record's two frames are handed one after the other, or the answer alone; the bytes are those of
`incidentDataA_data` and `incidentDataB_data`. -/
theorem incidentReadSendsTheRecord : Obligations.IncidentReadSendsTheRecord := by
  unfold Obligations.IncidentReadSendsTheRecord
  refine ⟨fun s slot b rest hs hTakes => ?_, fun g slot i n f t r hi hn hStrikes hZone hRough hSupply hMode hLow hHigh hf
    ht hForce hOutcome => ?_⟩
  · set w := s.taken .incidentRead rest with hw
    have hwEq : w = { s with
        normal := rest, configTimer := if s.partState = .config then some (s.ms + 3000) else s.configTimer } :=
      State.taken_of_service rfl rest
    have hwNone : w.noneDue := State.taken_noneDue hs
    have hwQueue : w.txQueue = s.txQueue := State.taken_txQueue _ _
    have hwList : w.incidents = s.incidents := by rw [hwEq]
    have hwGlobals : w.globals = s.globals := by rw [hwEq]
    cases hRecord : s.incidents[byteAt b 1]? with
    | some r =>
      have hInside : byteAt b 1 < s.incidents.length := (List.getElem?_eq_some_iff.1 hRecord).1
      set f := incidentDataA w.globals slot (byteAt b 1) r with hf
      set g := incidentDataB w.globals slot (byteAt b 1) w.incidents.length r with hg
      have hHandle := handleIncidentRead_some (s := w) (slot := slot) (b := b) (by rw [hwList]; exact hRecord)
      have hEnd : conclude slot 12 (w, .frames [f, g]) = handFrame g (handFrame f w) := by
        change handFrame g (handFrame f (flush w)) = _
        rw [flush_of_noneDue hwNone]
      refine ⟨handFrame g (handFrame f w), by rw [exec_incidentRead hTakes, hHandle, hEnd], ?_, fun c => ?_, ?_,
        ?_, fun r' hr' => ⟨fun e he hTag => ?_, fun hRoom => ?_⟩, fun hOutside => absurd hInside (by omega)⟩
      · rw [handFrame_eq, handFrame_eq f, hwEq]
      · rw [handFrame_ch, handFrame_ch, hw, State.taken_ch]
      · rw [handFrame_eq, handFrame_eq f, hwEq]
      · rw [handFrame_eq, handFrame_eq f, hwEq]
      · obtain rfl | he := mem_handFrame he
        · exact absurd hTag (by simp [hg, incidentDataB])
        · obtain rfl | he := mem_handFrame he
          · exact absurd hTag (by simp [hf, incidentDataA])
          · rwa [hwQueue] at he
      · cases hr'
        have hTwo := handFrame_two (s := w) (f := f) (g := g) rfl rfl (by rw [hwQueue]; omega)
        rw [hf, hg, hwGlobals, hwList] at hTwo
        rw [hf, hg, hwGlobals, hwList]
        exact hTwo
    | none =>
      have hHandle := handleIncidentRead_none (s := w) (slot := slot) (b := b) (by rw [hwList]; exact hRecord)
      rw [hwList] at hHandle
      have hExec := exec_incidentRead hTakes
      rw [hHandle] at hExec
      refine ⟨_, hExec, ?_, ?_, ?_, ?_, fun r h => absurd h.symm (Option.some_ne_none r), fun _ => ⟨?_, fun e he hTag => ?_⟩⟩
      · rw [conclude_rest, hwEq]
      · exact conclude_channelsKept _ _ _ _ hs fun c => State.taken_ch ..
      · rw [conclude_rest, hwEq]
      · rw [conclude_rest, hwEq]
      · exact conclude_answered _ _ _ _ (by rw [hwQueue]; omega)
      · rw [conclude_answer, flush_of_noneDue hwNone] at he
        obtain rfl | he := mem_handFrame he
        · exact absurd hTag (by simp [answerFrame])
        · rwa [hwQueue] at he
  · intro a d w
    have hCause : r.cause.code = match r.cause with | .pinch => 0 | .stall => 1 | .edge => 2 := by
      cases r.cause <;> rfl
    have hModeCode : r.mode.incidentCode = match r.mode with
      | .express => 0 | .hold => 1 | .reference => 2 | .reversal => 3 := by cases r.mode <;> rfl
    have hOutcomeCode : (r.outcome.map (·.1.code)).getD 0 = match r.outcome.map (·.1) with
        | none => 0 | some .completed => 1 | some .cut => 2 | some .stalled => 3 | some .hall => 4
        | some .none => 5 := by
      cases r.outcome with
      | none => rfl
      | some x => cases h : x.1 <;> simp [h, ReversalOutcome.code]
    refine ⟨rfl, rfl, rfl, rfl, bytesOf_length 8 _, ?_, ?_⟩
    · refine (incidentDataA_data g slot hi hZone hLow hHigh hf ht hForce).trans ?_
      rw [hCause] <;> rfl
    · refine (incidentDataB_data g slot hi hn hStrikes hRough hSupply hMode hOutcome).trans ?_
      rw [hModeCode, hOutcomeCode] <;> rfl

end Sys2Proof.Machine
end

section
/-! PROOFS. Clearing, the part states and the tuning table (R183 to R189). -/

namespace Sys2Proof.Machine
section
variable {s u : State} {slot : Slot} {b : List Byte} {rest : List Request}

/-! ### CLEAR (R189) -/

/-- What a CLEAR does to a channel: FAULTS, then STRIKES. -/
def clearedChannel (faults strikes : Bool) (x : Channel) : Channel :=
  let x := if faults then x.clearFaults else x
  if strikes then x.clearStrikes else x

/-- What a CLEAR of these bytes does to each channel. -/
def clearedBy (b : List Byte) (s : State) (c : Chan) : Channel :=
  clearedChannel ((byteAt b 1).testBit 0 && inMask (byteAt b 2) c) ((byteAt b 1).testBit 1 && inMask (byteAt b 2) c)
    (s.ch c)

theorem handleClear_eq (slot : Slot) (b : List Byte) (s : State) :
    handleClear slot b s = ({ s with
      channels := PerChan.ofFn (clearedBy b s)
      incidents := if (byteAt b 1).testBit 2 then [] else s.incidents }, .answer .accepted []) := by
  have hMasked (sel : Bool) (f : Channel → Channel) (v : State) :
      (if sel then forChans (fun c s => if inMask (byteAt b 2) c then s.modCh c f else s) v else v) =
        { v with channels := PerChan.ofFn fun c => if sel && inMask (byteAt b 2) c then f (v.ch c) else v.ch c } := by
    cases sel with
    | false =>
      have hSame : PerChan.ofFn (fun c => v.ch c) = v.channels := PerChan.ext_get fun c => PerChan.get_ofFn _ c
      simp only [Bool.false_and, Bool.false_eq_true, if_false, hSame]
    | true => exact forChans_masked _ f v
  unfold handleClear
  dsimp only
  rw [hMasked, hMasked]
  split <;> rfl

theorem clearedChannel_statusDue (p q : Bool) (x : Channel) :
    { clearedChannel p q x with
      stepFaults := x.stepFaults, reverseFaults := x.reverseFaults, speedFaults := x.speedFaults
      summary := x.summary, strikes := x.strikes, strikeTimer := x.strikeTimer, statusDue := x.statusDue } = x := by
  cases p <;> cases q <;> rfl

theorem clearedChannel_faults (p q : Bool) (x : Channel) :
    let y := clearedChannel p q x
    if p then y.stepFaults = 0 ∧ y.reverseFaults = 0 ∧ y.speedFaults = 0 ∧ y.summary = ⟨false, false, false⟩
    else y.stepFaults = x.stepFaults ∧ y.reverseFaults = x.reverseFaults ∧ y.speedFaults = x.speedFaults ∧
      y.summary = x.summary := by
  cases p <;> cases q <;> exact ⟨rfl, rfl, rfl, rfl⟩

theorem clearedChannel_strikes (p q : Bool) (x : Channel) :
    let y := clearedChannel p q x
    if q then y.strikes = 0 ∧ y.strikeTimer = none else y.strikes = x.strikes ∧ y.strikeTimer = x.strikeTimer := by
  cases p <;> cases q <;> exact ⟨rfl, rfl⟩

/-- Settles O55: the two selections of channels are `clearedChannel`, the third empties the list. -/
theorem clearClears : Obligations.ClearClears := by
  unfold Obligations.ClearClears
  intro s slot b rest hs hTakes sel
  have hExec := exec_clear hTakes
  rw [handleClear_eq, State.taken_of_service rfl rest] at hExec
  refine ⟨_, hExec, by rw [conclude_rest], fun c => ?_, by rw [conclude_rest],
    conclude_answered _ _ _ _ (Nat.le_succ _), by rw [conclude_rest]⟩
  have hFaults := clearedChannel_faults (sel.testBit 0 && inMask (byteAt b 2) c) (sel.testBit 1 && inMask (byteAt b 2) c)
    (s.ch c)
  have hStrikes := clearedChannel_strikes (sel.testBit 0 && inMask (byteAt b 2) c)
    (sel.testBit 1 && inMask (byteAt b 2) c) (s.ch c)
  have hRest := clearedChannel_statusDue (sel.testBit 0 && inMask (byteAt b 2) c)
    (sel.testBit 1 && inMask (byteAt b 2) c) (s.ch c)
  simp only [Bool.and_eq_true] at hFaults hStrikes
  rw [conclude_answer_ch]
  generalize hv : State.ch _ c = v
  have hCleared : v = clearedBy b s c := hv.symm.trans (PerChan.get_ofFn _ c)
  rw [hCleared]
  refine ⟨hFaults, hStrikes, Eq.trans ?_ hRest⟩
  rw [hs.due c]
  rfl

end

/-! ### CONFIG and START (R183 to R186) -/

theorem allIdle_iff (s : State) : s.allIdle = true ↔ ∀ c ∈ Chan.all, (s.ch c).mstate = .idle := by
  simp [State.allIdle, List.all_eq_true]

theorem PartState.run_of_ne {x : PartState} (h : x ≠ .config) : x = .run := by
  cases x with
  | config => exact absurd rfl h
  | run => rfl

/-- Settles O56: in CONFIG the screen has restarted the timer; in RUN the channels decide. -/
theorem configEntersWhenIdle : Obligations.ConfigEntersWhenIdle := by
  unfold Obligations.ConfigEntersWhenIdle
  intro s slot b rest hs hTakes
  have hExec := exec_config hTakes
  by_cases hConfig : s.partState = .config
  · rw [State.taken_of_config hConfig rfl, handleConfig, if_pos (by exact hConfig)] at hExec
    refine ⟨_, hExec, by rw [conclude_rest], conclude_channelsKept _ _ _ _ hs fun _ => rfl, ?_, by rw [conclude_rest]⟩
    rw [if_pos (.inl hConfig)]
    exact ⟨by rw [conclude_rest]; exact hConfig, by rw [conclude_rest], conclude_answered _ _ _ _ (Nat.le_succ _)⟩
  · have hRun := PartState.run_of_ne hConfig
    rw [State.taken_of_run hRun, handleConfig, if_neg (by exact hConfig)] at hExec
    by_cases hIdle : ∀ c ∈ Chan.all, (s.ch c).mstate = .idle
    · rw [if_pos (by exact (allIdle_iff s).2 hIdle)] at hExec
      refine ⟨_, hExec, by rw [conclude_rest], conclude_channelsKept _ _ _ _ hs fun _ => rfl, ?_,
        by rw [conclude_rest]⟩
      rw [if_pos (.inr hIdle)]
      exact ⟨by rw [conclude_rest], by rw [conclude_rest]; rfl, conclude_answered _ _ _ _ (Nat.le_succ _)⟩
    · rw [if_neg (by exact mt (allIdle_iff s).1 hIdle)] at hExec
      refine ⟨_, hExec, by rw [conclude_rest], conclude_channelsKept _ _ _ _ hs fun _ => rfl, ?_,
        by rw [conclude_rest]⟩
      rw [if_neg (by tauto)]
      exact ⟨by rw [conclude_rest]; exact hRun, by rw [conclude_rest], conclude_answered _ _ _ _ (Nat.le_succ _)⟩

section
variable {s : State}

/-- Leaving CONFIG clamps the tuning of every channel (R185, R186). -/
theorem leaveConfig_eq (s : State) : leaveConfig s = { s with
    channels := PerChan.ofFn fun c => { s.ch c with tune := (s.ch c).tune.clamped }
    staging := none, configTimer := none, partState := .run } := by
  unfold leaveConfig
  rw [forChans_modCh]
  rfl

theorem leaveConfig_ch (s : State) (c : Chan) :
    (leaveConfig s).ch c = { s.ch c with tune := (s.ch c).tune.clamped } := by
  rw [leaveConfig_eq]; exact PerChan.get_ofFn _ c

theorem clampsChange_iff (s : State) : s.clampsChange = true ↔ ¬∀ c ∈ Chan.all, (s.ch c).tune.clamped = (s.ch c).tune := by
  simp [State.clampsChange, List.any_eq_true]

end

/-- Settles O57: both ways out of CONFIG are `leaveConfig`, whose clamps are `ChanTuning.clamped_eq`. -/
theorem leavingConfigClamps : Obligations.LeavingConfigClamps := by
  unfold Obligations.LeavingConfigClamps
  intro clamped
  refine ⟨fun s slot b rest hs hTakes hConfig => ?_, fun s d hConfig hTimer => ?_⟩
  · have hExec := exec_start hTakes
    have hNotRun : s.partState ≠ .run := by rw [hConfig]; exact PartState.noConfusion
    rw [State.taken_of_config hConfig rfl, handleStart, if_neg (by exact hNotRun)] at hExec
    generalize hw : ({ s with normal := rest, configTimer := some (s.ms + 3000) } : State) = w at hExec
    have hwCh (c : Chan) : w.ch c = s.ch c := by rw [← hw]; rfl
    have hCh (c : Chan) : (leaveConfig w).ch c = { s.ch c with tune := (s.ch c).tune.clamped } := by
      rw [leaveConfig_ch, hwCh]
    generalize hr : (if w.clampsChange = true then Reply.clamped else .accepted) = r at hExec
    have hLeft : conclude slot 15 (leaveConfig w, .answer r []) = { leaveConfig w with
        channels := (conclude slot 15 (leaveConfig w, .answer r [])).channels
        txQueue := (conclude slot 15 (leaveConfig w, .answer r [])).txQueue
        readout := (conclude slot 15 (leaveConfig w, .answer r [])).readout } := conclude_rest ..
    have hTune (c : Chan) : ((conclude slot 15 (leaveConfig w, .answer r [])).ch c).tune = (s.ch c).tune.clamped := by
      rw [conclude_answer_ch, hCh]
    have hAnswered := conclude_answered (s := s) slot 15 r [] (u := leaveConfig w)
      (by rw [leaveConfig_eq, ← hw]; exact Nat.le_succ _)
    have hReply : r = if ∀ c ∈ Chan.all, ((conclude slot 15 (leaveConfig w, .answer r [])).ch c).tune = (s.ch c).tune
        then .accepted else .clamped := by
      have hChange : w.clampsChange = true ↔ ¬∀ c ∈ Chan.all, (s.ch c).tune.clamped = (s.ch c).tune := by
        rw [clampsChange_iff]; simp only [hwCh]
      simp only [hTune]
      rw [← hr]
      simp only [hChange, ite_not]
    refine ⟨_, hExec, ?_, ?_, ⟨?_, ?_, ?_, fun c => ⟨(hTune c).trans (ChanTuning.clamped_eq _), ?_⟩, ?_⟩, hReply ▸ hAnswered⟩
    · rw [hLeft, leaveConfig_eq, ← hw]
    · rw [hLeft, leaveConfig_eq, ← hw]
    · rw [hLeft, leaveConfig_eq]
    · rw [hLeft, leaveConfig_eq]
    · rw [hLeft, leaveConfig_eq]
    · rw [conclude_answer_ch, hCh, ← hs.due c]
    · rw [hLeft, leaveConfig_eq, ← hw]
  · have hExec : exec .configIdleExpiry s = .next (leaveConfig (s.waitUntil d)) := by
      change execConfigIdleExpiry s = _
      rw [execConfigIdleExpiry, hConfig, hTimer]
    refine ⟨_, hExec, by rw [leaveConfig_eq]; rfl, ⟨by rw [leaveConfig_eq], by rw [leaveConfig_eq],
      by rw [leaveConfig_eq], fun c => ?_, by rw [leaveConfig_eq]; rfl⟩, by rw [leaveConfig_eq]; rfl,
      by rw [leaveConfig_eq]; rfl, by rw [leaveConfig_eq]; rfl⟩
    rw [leaveConfig_ch, State.ch_waitUntil]
    exact ⟨ChanTuning.clamped_eq _, rfl⟩

/-! ### TUNE (R187) -/

/-- Storing the value held changes nothing (R187). -/
theorem ChanTuning.write_read (t : ChanTuning) (n : Nat) : t.write (t.read n) n = t := by
  have hFlag (x : Bool) : decide (x.toNat = 1) = x := by cases x <;> rfl
  have hAxis : (if t.axis.code = 0 then Axis.oneSided else .twoSided) = t.axis := by cases t.axis <;> rfl
  have hClosed : (if t.closedEnd.code = 0 then ClosedEnd.stall else .position) = t.closedEnd := by
    cases t.closedEnd <;> rfl
  have hRef : (if t.refEnd.code = 0 then RefEnd.closed else .negative) = t.refEnd := by cases t.refEnd <;> rfl
  have hCount : (if t.countMode.code = 0 then CountMode.x1 else if t.countMode.code = 1 then .x2 else .x4) =
      t.countMode := by cases t.countMode <;> rfl
  unfold ChanTuning.write
  split
  case h_1 => exact congrArg (fun x => { t with enable := x }) (hFlag t.enable)
  case h_2 => exact congrArg (fun x => { t with axis := x }) hAxis
  case h_3 => exact congrArg (fun x => { t with closedEnd := x }) hClosed
  case h_4 => exact congrArg (fun x => { t with refEnd := x }) hRef
  case h_5 => exact congrArg (fun x => { t with countMode := x }) hCount
  case h_6 => exact congrArg (fun x => { t with polarity := x }) (hFlag t.polarity)
  case h_36 => exact congrArg (fun x => { t with stripEnable := x }) (hFlag t.stripEnable)
  all_goals rfl

theorem Channel.tuneTo_tune (n v : Nat) (u : Channel) : (u.tuneTo n v).tune = u.tune.write v n := by
  by_cases h : u.tune.read n = v
  · rw [Channel.tuneTo_of_held h, ← h, ChanTuning.write_read]
  · rw [Channel.tuneTo_of_change h, Channel.tuned_tune]

section
variable {s : State} {b : List Byte} {r : ParamRange} (slot : Slot)

/-- The answer of a TUNE that is taken carries the value held after it (R187, R193). -/
def tuneAnswer (b : List Byte) (w : Nat) : Sends :=
  .answer (if w = wordAt b 3 then .accepted else .clamped) [byteAt b 1, byteAt b 2, w / 256, w % 256]

theorem handleTune_chan {c : Chan} (hRun : s.partState ≠ .run)
    (hTarget : tuneTarget (byteAt b 1) (byteAt b 2) = some (.chan c r)) : handleTune slot b s =
      (s.modCh c (·.tuneTo (byteAt b 1) (r.bringIn (wordAt b 3))), tuneAnswer b (r.bringIn (wordAt b 3))) := by
  simp only [handleTune, if_neg hRun, hTarget, tuneAnswer]

theorem handleTune_global (hRun : s.partState ≠ .run)
    (hTarget : tuneTarget (byteAt b 1) (byteAt b 2) = some (.global r)) : handleTune slot b s =
      ({ s with globals := s.globals.write (r.bringIn (wordAt b 3)) (byteAt b 1) },
        tuneAnswer b (r.bringIn (wordAt b 3))) := by
  simp only [handleTune, if_neg hRun, hTarget, tuneAnswer]

theorem handleTune_slot {i : Slot} (hRun : s.partState ≠ .run)
    (hTarget : tuneTarget (byteAt b 1) (byteAt b 2) = some (.slot i r)) : handleTune slot b s =
      ({ s with slots := s.slots.set i ((s.slots.get i).write (r.bringIn (wordAt b 3)) (byteAt b 1)) },
        tuneAnswer b (r.bringIn (wordAt b 3))) := by
  simp only [handleTune, if_neg hRun, hTarget, tuneAnswer]

end

/-- Settles O58: the lines of the three tables, what a target names, and the store of each kind of target. -/
theorem tuneStoresInRange : Obligations.TuneStoresInRange := by
  unfold Obligations.TuneStoresInRange
  refine ⟨chanRows_tabled, globalRows_tabled, slotRows_tabled, fun n x y => tuneTarget_iff, fun low high v h =>
    bringIn_span h, bringIn_z, bringIn_n, fun s slot b rest x hs hTakes hConfig hTarget => ?_⟩
  intro n held told
  have hNotRun : s.partState ≠ .run := by rw [hConfig]; exact PartState.noConfusion
  have hExec := exec_tune hTakes
  rw [State.taken_of_config hConfig rfl] at hExec
  cases x with
  | chan c r =>
    rw [handleTune_chan slot (by exact hNotRun) hTarget, tuneAnswer] at hExec
    refine ⟨_, hExec, by rw [conclude_rest]; rfl, by rw [conclude_rest]; rfl, ?_, ?_,
      conclude_answered _ _ _ _ (Nat.le_succ _),
      conclude_othersKept _ _ _ _ hs (modCh_oneChannel c _ _).others, by rw [conclude_rest]; rfl⟩
    · rw [conclude_answer_ch, State.ch_modCh_self]; exact Channel.tuneTo_tune _ _ _
    · rw [conclude_answer_ch, State.ch_modCh_self]; rfl
  | global r =>
    rw [handleTune_global slot (by exact hNotRun) hTarget, tuneAnswer] at hExec
    exact ⟨_, hExec, by rw [conclude_rest], by rw [conclude_rest], by rw [conclude_rest],
      conclude_answered _ _ _ _ (Nat.le_succ _), conclude_channelsKept _ _ _ _ hs fun _ => rfl, by rw [conclude_rest]⟩
  | slot i r =>
    rw [handleTune_slot slot (by exact hNotRun) hTarget, tuneAnswer] at hExec
    refine ⟨_, hExec, by rw [conclude_rest], by rw [conclude_rest], ?_,
      conclude_answered _ _ _ _ (Nat.le_succ _), conclude_channelsKept _ _ _ _ hs fun _ => rfl, fun j hj => ?_,
      by rw [conclude_rest]⟩
    · rw [conclude_rest]; exact PerSlot.get_set_self ..
    · rw [conclude_rest]; exact PerSlot.get_set_ne _ _ hj

end Sys2Proof.Machine
end

section
/-! PROOFS. The roughness level (R51 to R53), the readout of a profile (R67, R68) and its restore (R71 to R77). -/

namespace Sys2Proof.Machine
section
variable {s u : State} {slot : Slot} {b : List Byte} {rest : List Request} {c : Chan}

/-! ### VEHICLE (R51 to R53) -/

/-- What a new roughness level does to a motion record (R53). -/
def roughened (n : Nat) (m : Motion) : Motion := if m.started then { m with maxRough := max m.maxRough n } else m

theorem setRoughness_same {n : Nat} (h : n = s.roughness) : setRoughness n s = s := if_pos h

theorem setRoughness_change {n : Nat} (h : n ≠ s.roughness) : setRoughness n s = { s with
    roughness := n, channels := PerChan.ofFn fun c => (s.ch c).mapMotion (roughened n) } := by
  unfold setRoughness
  rw [if_neg h, forChans_modCh]
  rfl

/-- A new roughness level reaches the records of the motions that run and nothing else of the channels (R53). -/
theorem setRoughness_eq (n : Nat) (s : State) : ∃ u, setRoughness n s = u ∧ u.roughness = n ∧
    (∀ c, u.ch c = { s.ch c with
      motion := if n = s.roughness then (s.ch c).motion else (s.ch c).motion.map (roughened n) }) ∧
    u = { s with roughness := u.roughness, channels := u.channels } := by
  by_cases h : n = s.roughness
  · refine ⟨s, setRoughness_same h, h.symm, fun c => ?_, rfl⟩
    rw [if_pos h]
  · refine ⟨_, setRoughness_change h, rfl, fun c => ?_, rfl⟩
    rw [if_neg h]
    exact PerChan.get_ofFn _ c

end

/-- Settles O47: the level set reaches the records by `setRoughness_eq`; the level 0 raises no maximum. -/
theorem vehicleSetsRoughness : Obligations.VehicleSetsRoughness := by
  unfold Obligations.VehicleSetsRoughness
  refine ⟨fun s slot b rest hs hTakes => ?_, fun s d hTimer => ?_⟩
  · intro n
    have hExec := exec_vehicle hTakes
    rw [State.taken_of_free (by decide)] at hExec
    obtain ⟨u, hSet, hLevel, hCh, hRest⟩ := setRoughness_eq n
      { s with normal := rest, vehicleTimer := startTimer s.clock s.globals.vehicleHold }
    have hHandle : handleVehicle slot b { s with normal := rest } =
        (u, .answer (if byteAt b 1 ≤ 3 then .accepted else .clamped) [n]) := by
      rw [← hSet]; rfl
    rw [hHandle] at hExec
    have hQueue : u.txQueue = s.txQueue := by rw [hRest]
    refine ⟨_, hExec, ?_, ?_, ?_, fun c => ?_, conclude_answered _ _ _ _ (by rw [hQueue]; exact Nat.le_succ _), ?_⟩
    · rw [conclude_rest, hRest]
    · rw [conclude_rest]; exact hLevel
    · rw [conclude_rest, hRest]; rfl
    · rw [conclude_answer_ch, hCh, ← hs.due c]
      exact ⟨rfl, rfl⟩
    · rw [conclude_rest, hRest]
  · have hExec : exec .vehicleDataHoldExpiry s =
        .next (setRoughness 0 { s.waitUntil d with vehicleTimer := none }) := by
      change execVehicleDataHoldExpiry s = _
      rw [execVehicleDataHoldExpiry, hTimer]
    obtain ⟨u, hSet, hLevel, hCh, hRest⟩ := setRoughness_eq 0 { s.waitUntil d with vehicleTimer := none }
    have hZero (m : Motion) : roughened 0 m = m := by
      unfold roughened
      split
      · rw [Nat.max_zero]
      · rfl
    rw [hSet] at hExec
    refine ⟨_, hExec, by rw [hRest]; rfl, hLevel, by rw [hRest], fun c => ?_, by rw [hRest]; rfl⟩
    have hMap : (s.ch c).motion.map (roughened 0) = (s.ch c).motion := by
      rw [funext hZero]; exact Option.map_id'
    rw [hCh]
    change { s.ch c with motion := if 0 = s.roughness then (s.ch c).motion else (s.ch c).motion.map (roughened 0) } = _
    rw [hMap, ite_self]

/-! ### Readout (R67, R68, R195) -/

section
variable {s : State} {slot : Slot} {b : List Byte} {rest : List Request} {c : Chan}

/-- Lt as every bound reads it (R17, R60). -/
theorem ChanTuning.ltUsed_nat (t : ChanTuning) : t.ltUsed = if t.axis = .oneSided then 0 else t.lt := by
  unfold ChanTuning.ltUsed
  cases t.axis <;> rfl

/-- The engine hands its next frame behind every frame in the queue (R68, R172). -/
theorem handReadout_hands {r : Readout} (hReadout : s.readout = some r) (hLeft : r.handed < r.snap.frames)
    (hRoom : s.txQueue.length < 12) (hNone : ∀ e ∈ s.txQueue, e.frame.tag ≠ .readout) :
    handReadout s = { s with
      readout := some ⟨r.snap, r.handed + 1⟩
      txQueue := s.txQueue ++ [⟨readoutFrame s.globals r.snap r.handed, none, false⟩] } := by
  unfold handReadout
  rw [hReadout]
  dsimp only
  rw [if_pos ⟨hLeft, hRoom, by simpa using hNone⟩, txInsert_readout rfl]

theorem handleProfileRead_idle (hChan : Chan.ofNat? (byteAt b 1) = some c) (hReadout : s.readout = none) :
    handleProfileRead slot b s =
      (handReadout { s with readout := some ⟨snapshotOf c (s.ch c), 0⟩ }, .answer .accepted [byteAt b 1]) := by
  simp only [handleProfileRead, hChan, hReadout]

/-- An ANSWER handed to a queue with room, with no STATUS due. -/
theorem conclude_room {kind : Nat} {r : Reply} {t : List Nat} (hs : s.noneDue) (hRoom : s.txQueue.length < 12) :
    conclude slot kind (s, .answer r t) =
      { s with txQueue := txInsert (answerFrame s.globals slot kind r t) s.txQueue } := by
  rw [conclude_answer, flush_of_noneDue hs, handFrame_room hRoom]

theorem bytesOf_two_eq (v : Nat) : bytesOf 2 v = [byteOf (v / 256), byteOf v] := by
  simp [bytesOf, byteOf]

/-- The header of a readout (R195). -/
theorem readoutFrame_header (g : GlobalTuning) (n : Snapshot) :
    (readoutFrame g n 0).data = [byteOf n.chan.toNat, byteOf n.chan.toNat, byteOf n.z, byteOf (n.lo / 256),
      byteOf n.lo, byteOf (n.lt / 256), byteOf n.lt] := by
  simp only [readoutFrame, bytesOf_two_eq]
  rfl

end

/-- Settles O48: the header is handed behind the queue and the answer joins it; the other frames are those of
`readoutFrame_segment` and `readoutFrame_end`. -/
theorem readoutIsSent : Obligations.ReadoutIsSent := by
  unfold Obligations.ReadoutIsSent
  refine ⟨fun s slot b rest c => ?_, fun s r hReadout hLeft hRoom hNone =>
    ⟨_, congrArg Host.Outcome.next (handReadout_hands hReadout hLeft hRoom hNone), rfl, rfl, rfl⟩,
    fun g n k e1 e2 hz h1 h2 hCheck hLow hHigh => ?_⟩
  · intro u lt hs hTakes hChan hReadout hRoom hNone
    have hExec := exec_profileRead hTakes
    generalize hw : s.taken .profileRead rest = w at hExec
    have hwEq : w = { s with
        normal := rest, configTimer := if s.partState = .config then some (s.ms + 3000) else s.configTimer } :=
      hw.symm.trans (State.taken_of_service rfl rest)
    have hwNone : w.noneDue := hw ▸ State.taken_noneDue hs
    have hwQueue : w.txQueue = s.txQueue := by rw [hwEq]
    have hwCh (d : Chan) : w.ch d = s.ch d := by rw [← hw, State.taken_ch]
    have hHands := handReadout_hands (s := { w with readout := some ⟨snapshotOf c (w.ch c), 0⟩ }) rfl (Nat.succ_pos _)
      (show w.txQueue.length < 12 by rw [hwQueue]; omega) (show ∀ e ∈ w.txQueue, _ by rw [hwQueue]; exact hNone)
    rw [handleProfileRead_idle hChan (by rw [hwEq]; exact hReadout), hHands, hwCh, conclude_room (by exact hwNone.of_channels rfl)
      (by simp only [List.length_append, List.length_singleton, hwQueue]; omega)] at hExec
    have hLt : u.tune.ltUsed = lt := ChanTuning.ltUsed_nat _
    refine ⟨_, snapshotOf c u, hExec, by rw [hwEq], rfl, rfl, rfl, rfl, hLt, rfl, rfl, rfl, ?_, ?_, fun _ => ?_,
      hwCh, ?_, fun hRun => ?_⟩
    · rw [← hLt]; rfl
    · refine ⟨⟨readoutFrame w.globals (snapshotOf c u) 0, none, false⟩, (mem_txInsert _ _ _).2 (.inr (by simp [u])), rfl,
        by rw [hwEq]; rfl, ?_⟩
      rw [← hLt]
      exact readoutFrame_header _ _
    · exact ⟨_, (mem_txInsert _ _ _).2 (.inl rfl), rfl⟩
    · rw [hwEq]
    · rw [hwEq]; exact if_neg (by rw [hRun]; exact PartState.noConfusion)
  · intro w
    have hDatum : (if n.datum = .referenced then 1 else 0) + n.datum.code * 2 = match n.datum with
        | .unreferenced => 0 | .seeking => 2 | .referenced => 5 := by cases n.datum <;> rfl
    refine ⟨rfl, rfl, fun hk hFirst hSecond => readoutFrame_segment g (by omega) hk h1 h2 hFirst hSecond, ?_, rfl⟩
    refine (readoutFrame_end g hCheck hLow hHigh).trans ?_
    rw [hDatum] <;> rfl

/-! ### Restore (R71 to R77) -/

section
variable {s : State} {slot : Slot} {b : List Byte} {rest : List Request} {c : Chan} {l : Staging}

theorem restoring_config (h : s.partState = .config) (trailer : List Nat) (act : State × Sends) :
    restoring trailer act s = act := by
  rw [restoring, if_neg (by rw [h]; exact PartState.noConfusion)]

theorem handleRestoreBegin_config (h : s.partState = .config) (hChan : Chan.ofNat? (byteAt b 1) = some c)
    (hz : byteAt b 2 = 16 ∨ byteAt b 2 = 32 ∨ byteAt b 2 = 64) (hHolder : ∀ l ∈ s.staging, l.slot = slot) :
    handleRestoreBegin slot b s =
      ({ s with staging := some ⟨slot, c, byteAt b 2, wordAt b 3, wordAt b 5, 0, [], s.ms + Config.stagingMs⟩ },
        .answer .accepted [byteAt b 1]) := by
  unfold handleRestoreBegin
  dsimp only
  rw [restoring_config h, hChan]
  dsimp only
  rw [if_neg (by omega), if_neg]
  rw [Option.any_eq_true]
  rintro ⟨x, hx, hOther⟩
  exact of_decide_eq_true hOther (hHolder x hx)

theorem handleRestoreData_config (h : s.partState = .config) (hStaging : s.staging = some l) (hHolder : l.slot = slot) :
    handleRestoreData slot b s =
      if byteAt b 1 = l.chan.toNat ∧ byteAt b 2 = l.expected ∧ l.expected < l.z / 2 then
        ({ s with staging := some (l.store s.clock (wordAt b 3) (wordAt b 5)) },
          .answer .accepted [byteAt b 1, byteAt b 2])
      else ({ s with staging := none }, .answer .sequence [byteAt b 1, byteAt b 2]) := by
  unfold handleRestoreData
  dsimp only
  rw [restoring_config h, hStaging]
  exact if_neg (not_not.2 hHolder)

/-- A good END frees the buffer and installs the load (R75). -/
theorem handleRestoreEnd_good (h : s.partState = .config) (hStaging : s.staging = some l) (hHolder : l.slot = slot)
    (hComplete : l.expected = l.z / 2) (hFits : l.fits (s.ch l.chan).tune = true)
    (hCheck : byteAt b 4 = checkByte l.z l.lo l.lt l.entries (signedAt b 1) ((byteAt b 3).testBit 0)) :
    handleRestoreEnd slot b s =
      ((installLoad l (signedAt b 1) ((byteAt b 3).testBit 0) { s with staging := none }).1,
        .answer (installLoad l (signedAt b 1) ((byteAt b 3).testBit 0) { s with staging := none }).2 []) := by
  unfold handleRestoreEnd
  rw [restoring_config h, hStaging]
  dsimp only
  rw [if_neg (not_not.2 hHolder), if_neg (not_not.2 hComplete), if_neg (by rw [hFits]; decide),
    if_neg (not_not.2 hCheck)]

/-- An END that offers no position that is taken installs the table alone (R77). -/
theorem installLoad_table {p : Int} {flag : Bool}
    (h : ¬(flag = true ∧ (s.ch l.chan).edged = false ∧ -((s.ch l.chan).tune.ltUsed : Int) ≤ p ∧
      p ≤ (s.ch l.chan).tune.lo)) :
    installLoad l p flag s = (s.modCh l.chan fun ch => { ch with zones := l.entries }, .posIgnored) := by
  unfold installLoad
  refine if_neg fun hTakes => h ?_
  simpa [Channel.takesPosition] using hTakes

/-- An END whose position is taken (R23, R77). -/
theorem installLoad_position {p : Int} {flag : Bool}
    (h : flag = true ∧ (s.ch l.chan).edged = false ∧ -((s.ch l.chan).tune.ltUsed : Int) ≤ p ∧
      p ≤ (s.ch l.chan).tune.lo) :
    installLoad l p flag s = ((s.modCh l.chan fun ch => { ch with zones := l.entries }).modCh l.chan fun ch =>
      ({ ch with position := p }).setDatum .referenced, .accepted) := by
  unfold installLoad
  refine if_pos ?_
  simpa [Channel.takesPosition] using h

end

/-- Settles O49: a BEGIN starts the load, and DATA joins it or frees the buffer. -/
theorem restoreLoads : Obligations.RestoreLoads := by
  unfold Obligations.RestoreLoads
  refine ⟨fun s slot b rest c hs hTakes hConfig hChan hz hHolder => ?_,
    fun s slot b rest l hs hTakes hConfig hStaging hHolder => ?_⟩
  · have hExec := exec_restoreBegin hTakes
    rw [State.taken_of_config hConfig rfl,
      handleRestoreBegin_config (by exact hConfig) hChan hz (by exact hHolder)] at hExec
    exact ⟨_, hExec, by rw [conclude_rest], by rw [conclude_rest]; rfl, by rw [conclude_rest],
      conclude_answered _ _ _ _ (Nat.le_succ _), conclude_channelsKept _ _ _ _ hs fun _ => rfl, by rw [conclude_rest]⟩
  · have hExec := exec_restoreData hTakes
    rw [State.taken_of_config hConfig rfl, handleRestoreData_config (by exact hConfig) (by exact hStaging) hHolder] at hExec
    split at hExec
    · next hSegment =>
      refine ⟨_, hExec, by rw [conclude_rest], conclude_channelsKept _ _ _ _ hs fun _ => rfl, ?_,
        by rw [conclude_rest], by rw [conclude_rest]⟩
      rw [if_pos hSegment]
      exact ⟨by rw [conclude_rest]; rfl, conclude_answered _ _ _ _ (Nat.le_succ _)⟩
    · next hSegment =>
      refine ⟨_, hExec, by rw [conclude_rest], conclude_channelsKept _ _ _ _ hs fun _ => rfl, ?_,
        by rw [conclude_rest], by rw [conclude_rest]⟩
      rw [if_neg hSegment]
      exact ⟨by rw [conclude_rest], conclude_answered _ _ _ _ (Nat.le_succ _)⟩

/-- Settles O50: the checks of a good END hold, and `installLoad` takes the position or leaves it. -/
theorem restoreInstalls : Obligations.RestoreInstalls := by
  unfold Obligations.RestoreInstalls
  intro s slot b rest l u lt p flag takenPos hs hTakes hConfig hStaging hHolder hComplete hz hLo hLt hCheck
  have hLtUsed : u.tune.ltUsed = lt := ChanTuning.ltUsed_nat _
  have hFits : l.fits u.tune = true := by simp [Staging.fits, hz, hLo, hLt, hLtUsed]
  have hExec := exec_restoreEnd hTakes
  rw [State.taken_of_config hConfig rfl,
    handleRestoreEnd_good (by exact hConfig) (by exact hStaging) hHolder hComplete (by exact hFits) hCheck] at hExec
  have hTaken : takenPos ↔ flag = true ∧ u.edged = false ∧ -(u.tune.ltUsed : Int) ≤ p ∧ p ≤ u.tune.lo := by
    rw [hLtUsed]
  by_cases h : takenPos
  · rw [installLoad_position (by exact hTaken.1 h)] at hExec
    simp only [if_pos h]
    have hOne (w : State) := (modCh_oneChannel l.chan (fun ch => { ch with zones := l.entries }) w).trans
      (modCh_oneChannel l.chan (fun ch => ({ ch with position := p }).setDatum .referenced) _)
    refine ⟨_, hExec, by rw [conclude_rest]; rfl, by rw [conclude_rest]; rfl, ?_, ?_, ?_, ?_, ?_,
      conclude_answered _ _ _ _ (Nat.le_succ _), conclude_othersKept _ _ _ _ hs (hOne _).others,
      by rw [conclude_rest]; rfl⟩
    all_goals
      rw [conclude_answer_ch, State.ch_modCh_self, State.ch_modCh_self]
      rfl
  · rw [installLoad_table (by exact mt hTaken.2 h)] at hExec
    simp only [if_neg h]
    refine ⟨_, hExec, by rw [conclude_rest]; rfl, by rw [conclude_rest]; rfl, ?_, ?_, ?_, ?_, ?_,
      conclude_answered _ _ _ _ (Nat.le_succ _), conclude_othersKept _ _ _ _ hs (modCh_oneChannel l.chan _ _).others,
      by rw [conclude_rest]; rfl⟩
    · rw [conclude_answer_ch, State.ch_modCh_self]
    all_goals
      rw [conclude_answer_ch, State.ch_modCh_self]
      rfl

end Sys2Proof.Machine
end

section
/-! PROOFS. Goals, directions and classes (R40, R84, R116, R117), and the MOVE that reaches an IDLE channel or no channel
(R118 to R125). -/

namespace Sys2Proof.Machine
/-! ### Goals and directions (R40, R84, R116, R117) -/

theorem ChanTuning.clampTarget_eq (t : ChanTuning) (x : Int) :
    t.clampTarget x = max (-(if t.axis = .oneSided then 0 else (t.lt : Int))) (min x t.lo) := by
  rw [ChanTuning.clampTarget, ChanTuning.ltUsed_eq]

theorem goalDir_target (axis : Axis) {x : Int} (h : x ≠ 0) (p : Int) :
    goalDir axis (.target x) p = if p < x then some .inc else if x < p then some .dec else none := by
  simp only [goalDir, Goal.held, if_neg h]

theorem goalDir_target_zero (axis : Axis) (p : Int) : goalDir axis (.target 0) p = goalDir axis (.toEnd .toClose) p :=
  rfl

theorem goalDir_close_twoSided (p : Int) :
    goalDir .twoSided (.toEnd .toClose) p = if 0 < p then some .dec else if p < 0 then some .inc else none := rfl

/-- The end in the direction of a clamped target, or the target itself where it gives no direction (R116). -/
theorem Channel.goalOf_hold (c : Channel) (x : Int) : c.goalOf .hold .target x =
    match goalDir c.tune.axis (.target (c.tune.clampTarget x)) c.position with
    | some d => .toEnd (endToward c.tune.axis d c.position)
    | none => .target (c.tune.clampTarget x) := rfl

theorem Channel.goalOf_hold_oneSided {c : Channel} (hAxis : c.tune.axis = .oneSided) (x : Int) :
    c.goalOf .hold .target x =
      if c.tune.clampTarget x = 0 ∨ c.tune.clampTarget x < c.position then .toEnd .toClose
      else if c.position < c.tune.clampTarget x then .toEnd .toOpen else .target (c.tune.clampTarget x) := by
  rw [Channel.goalOf_hold, hAxis]
  generalize c.tune.clampTarget x = t
  by_cases ht : t = 0
  · rw [ht, goalDir_target_zero, if_pos (.inl rfl)]
    rfl
  · rw [goalDir_target _ ht]
    grind [endToward]

theorem Channel.goalOf_hold_twoSided {c : Channel} (hAxis : c.tune.axis = .twoSided) (x : Int) :
    c.goalOf .hold .target x =
      if c.position < c.tune.clampTarget x then
        (if 0 ≤ c.position then .toEnd .toOpen else .toEnd .toClose)
      else if c.tune.clampTarget x < c.position then
        (if 0 < c.position then .toEnd .toClose else .toEnd .toTilt)
      else .target (c.tune.clampTarget x) := by
  rw [Channel.goalOf_hold, hAxis]
  generalize c.tune.clampTarget x = t
  by_cases ht : t = 0
  · rw [ht, goalDir_target_zero, goalDir_close_twoSided]
    grind [endToward]
  · rw [goalDir_target _ ht]
    grind [endToward]

/-- When a bridge drives toward 0 (R40). -/
theorem Channel.drivesTowardZero_iff (c : Channel) : c.drivesTowardZero = true ↔
    (c.tune.axis = .oneSided ∧ c.bridge = .driveDec) ∨
      (c.tune.axis = .twoSided ∧ ((c.bridge = .driveDec ∧ 0 < c.position) ∨ (c.bridge = .driveInc ∧ c.position < 0))) := by
  unfold Channel.drivesTowardZero towardZero
  cases c.bridge <;> cases c.tune.axis <;> simp [Bridge.dir]

/-- Driving in a direction at a position is driving toward 0 (R40). -/
theorem towardZero_iff (axis : Axis) (d : Dir) (p : Int) : towardZero axis d p = true ↔
    (axis = .oneSided ∧ d = .dec) ∨ (axis = .twoSided ∧ ((d = .dec ∧ 0 < p) ∨ (d = .inc ∧ p < 0))) := by
  cases axis <;> cases d <;> simp [towardZero]

theorem classify_dir (axis : Axis) (d : Dir) (p : Int) : classify axis false (some d) p =
    if towardZero axis d p then .close else if axis = .twoSided ∧ d = .dec ∧ p ≤ 0 then .tilt else .opening := rfl

/-- Settles O38: the goals by the clamped target and the direction it gives, the class by `towardZero`. -/
theorem targetGoalIsFormed : Obligations.TargetGoalIsFormed := by
  unfold Obligations.TargetGoalIsFormed
  refine ⟨fun c x => ?_, fun axis p x => ⟨rfl, rfl, rfl, rfl, rfl, fun h => goalDir_target axis h p⟩,
    Channel.drivesTowardZero_iff, fun axis d od p => ?_⟩
  · intro lt t p
    have ht : c.tune.clampTarget x = t := ChanTuning.clampTarget_eq _ _
    refine ⟨?_, fun hAxis => ?_, fun hAxis => ?_, ?_, ?_⟩
    · rw [← ht]; rfl
    · rw [Channel.goalOf_hold_oneSided hAxis, ht]
    · rw [Channel.goalOf_hold_twoSided hAxis, ht]
    · simp [Channel.clamps, ht]
    · simp [Channel.clamps]
  · intro close tilt
    refine ⟨rfl, rfl, ?_⟩
    rw [classify_dir]
    simp only [close, tilt, ← towardZero_iff]
    by_cases hClose : towardZero axis d p = true
    · have hNoTilt : ¬(axis = .twoSided ∧ d = .dec ∧ p ≤ 0) := by
        have := (towardZero_iff axis d p).1 hClose
        rintro ⟨rfl, rfl, hp⟩
        simp at this
        omega
      simp [hClose, hNoTilt]
    · rw [if_neg hClose]
      by_cases hTilt : axis = .twoSided ∧ d = .dec ∧ p ≤ 0
      · rw [if_pos hTilt]
        exact ⟨⟨nofun, fun h => absurd h hClose⟩, ⟨fun _ => hTilt, fun _ => rfl⟩, ⟨nofun, fun h => absurd hTilt h.2⟩⟩
      · rw [if_neg hTilt]
        exact ⟨⟨nofun, fun h => absurd h hClose⟩, ⟨nofun, fun h => absurd h hTilt⟩, ⟨fun _ => ⟨hClose, hTilt⟩, fun _ => rfl⟩⟩

end Sys2Proof.Machine
end

section
/-! PROOFS. A MOVE on its way through the checks (R118): what it comes to where the slot holds no latch, the check that
fails, the grant on an IDLE channel, the refresh and the latch (R119 to R125). -/

namespace Sys2Proof.Machine
/-- A MOVE from a slot for a channel, its mode and goal kind known, which the dispatcher takes in RUN (R118). -/
structure AsksMove (s : State) (slot : Slot) (b : List Byte) (rest : List Request) (c : Chan) (mode : Mode)
    (k : GoalKind) : Prop where
  takes : s.takes .move slot b rest
  run : s.partState = .run
  chan : Chan.ofNat? (byteAt b 1) = some c
  mode : moveModeOf (byteAt b 2) = some mode
  kind : GoalKind.ofCode (byteAt b 3) = some k

section
variable {s u : State} {slot : Slot} {b : List Byte} {rest : List Request} {c : Chan} {mode : Mode} {k : GoalKind}
  {g : Grant}

theorem exec_move_answered {r : Reply} (h : AsksMove s slot b rest c mode k)
    (hMove : moveChannel c slot mode k (signedAt b 4) { s with normal := rest } = (u, some r)) :
    exec .move s = .next (conclude slot 1 (u, .answer r [byteAt b 1])) := by
  rw [exec_move h.takes, State.taken_of_run h.run, handleMove, if_neg (not_not.2 (by exact h.run)), h.chan, h.mode,
    h.kind]
  dsimp only
  rw [hMove]

theorem exec_move_silent (h : AsksMove s slot b rest c mode k)
    (hMove : moveChannel c slot mode k (signedAt b 4) { s with normal := rest } = (u, none)) :
    exec .move s = .next (flush u) := by
  rw [exec_move h.takes, State.taken_of_run h.run, handleMove, if_neg (not_not.2 (by exact h.run)), h.chan, h.mode,
    h.kind]
  dsimp only
  rw [hMove]
  rfl

/-- A MOVE is EXPRESS or HOLD (R192). -/
theorem moveModeOf_cases {n : Nat} (h : moveModeOf n = some mode) : mode = .express ∨ mode = .hold := by
  unfold moveModeOf at h
  split at h
  · exact .inl (Option.some.inj h).symm
  · exact .inr (Option.some.inj h).symm
  · exact absurd h.symm (Option.some_ne_none mode)

theorem moveChannel_refused {r : Reply} (h : (s.ch c).refusesKind k = some r) (x : Int) :
    moveChannel c slot mode k x s = (s, some r) := by
  simp only [moveChannel, h]

/-- Without a latch of the slot, check 6 does not arise (R125). -/
theorem moveChannel_unlatched (hKind : (s.ch c).refusesKind k = none) (hLatch : (s.ch c).latches.get slot = none)
    (x : Int) : moveChannel c slot mode k x s =
      decideMove c ((s.ch c).wish slot mode k x) ((s.ch c).clamps mode k x) s := by
  have hNoMatch : (s.ch c).matchesLatch ((s.ch c).wish slot mode k x) = false := by
    have hSlot : (s.ch c).latches.get ((s.ch c).wish slot mode k x).slot = none := hLatch
    simp only [Channel.matchesLatch, hSlot]
  have hDrop : s.modCh c (·.dropLatch slot) = s := by
    have hSame : (s.ch c).dropLatch slot = s.ch c := by
      rw [Channel.dropLatch, ← hLatch, PerSlot.set_get_self]
    rw [State.modCh, hSame]
    exact State.modCh_id s c
  simp only [moveChannel, hKind, hNoMatch, hDrop, Bool.false_eq_true, if_false]

theorem decideMove_refused {r : Reply} (h : s.refuses c g = some r) (clamped : Bool) :
    decideMove c g clamped s = (s, some r) := by
  simp only [decideMove, h]

theorem decideMove_passed (h : s.refuses c g = none) (clamped : Bool) :
    decideMove c g clamped s = arbitrate c g clamped s := by
  simp only [decideMove, h]

theorem arbitrate_unowned (h : (s.ch c).owner = none) (clamped : Bool) :
    arbitrate c g clamped s = (grantTo c g s, some (grantReply g clamped (s.ch c))) := by
  simp only [arbitrate, h]

/-- Another slot's owner of the same or a higher rank keeps the channel (R119). -/
theorem arbitrate_busy {o : Owner} (h : (s.ch c).owner = some o) (hSlot : o.slot ≠ g.slot)
    (hRank : (s.slots.get g.slot).rank ≤ (s.slots.get o.slot).rank) (clamped : Bool) :
    arbitrate c g clamped s = (s, some .busy) := by
  have hNoRefresh : isRefresh g o = false := by simp [isRefresh, hSlot]
  simp only [arbitrate, h, hNoRefresh, Bool.false_eq_true, if_false]
  exact if_neg (not_or.2 ⟨hSlot, by omega⟩)

theorem arbitrate_refresh {o : Owner} (h : (s.ch c).owner = some o) (hRefresh : isRefresh g o = true) (clamped : Bool) :
    arbitrate c g clamped s = (s.modCh c (·.grantTimer s.clock .hold), none) := by
  simp only [arbitrate, h, hRefresh, if_true]

/-! ### The checks in their order (R118) -/

/-- The outcome of the first line whose check fails. -/
def firstFailing (l : List (Bool × Reply)) : Option Reply := (l.find? (·.1)).map (·.2)

theorem firstFailing_cons (x : Bool × Reply) (l : List (Bool × Reply)) :
    firstFailing (x :: l) = if x.1 then some x.2 else firstFailing l := by
  unfold firstFailing
  rw [List.find?_cons]
  cases x.1 <;> rfl

theorem firstFailing_append (l m : List (Bool × Reply)) :
    firstFailing (l ++ m) = (firstFailing l).or (firstFailing m) := by
  induction l with
  | nil => rfl
  | cons x l ih =>
    rw [List.cons_append, firstFailing_cons, firstFailing_cons, ih]
    split <;> rfl

/-- Checks 4 and 5. -/
def Channel.kindChecks (k : GoalKind) (u : Channel) : List (Bool × Reply) :=
  [(!u.tune.enable, .disabled), (decide (k = .toEnd .toTilt ∧ u.tune.axis = .oneSided), .malformed)]

/-- Checks 7 to 11. -/
def State.moveChecks (c : Chan) (g : Grant) (s : State) : List (Bool × Reply) :=
  let u := s.ch c
  let cls := classify u.tune.axis false g.dir u.position
  [(!u.allowed.get g.slot, .locked), (u.reverses, .reversing),
    (decide (g.mode ≠ .hold ∧ u.datum ≠ .referenced), .unref),
    (decide (s.band = .high ∨ (s.band = .low ∧ (cls = .close ∨ cls = .tilt))), .supply),
    (decide (g.mode = .express ∧ cls = .close ∧ u.strikes = 3), .strikes)]

theorem Channel.refusesKind_eq (u : Channel) : u.refusesKind k = firstFailing (u.kindChecks k) := by
  simp only [Channel.refusesKind, Channel.kindChecks, firstFailing_cons, decide_eq_true_eq]
  rfl

theorem State.refuses_eq (s : State) : s.refuses c g = firstFailing (s.moveChecks c g) := by
  simp only [State.refuses, State.moveChecks, firstFailing_cons, decide_eq_true_eq]
  rfl

theorem Channel.reverses_iff (u : Channel) : u.reverses = true ↔ u.mstate = .reversing ∨
    (u.mstate = .braking ∧ ∃ e, u.motion.bind (·.braking) = some ⟨.reversal, e⟩) ∨
    (u.mstate = .paused ∧ (u.motion.bind (·.pausedFrom) = some .reversing ∨
      u.motion.bind (·.pausedFrom) = some .reversal)) := by
  have hPaused : u.pausedReversal = true ↔ u.mstate = .paused ∧ (u.motion.bind (·.pausedFrom) = some .reversing ∨
      u.motion.bind (·.pausedFrom) = some .reversal) := by
    unfold Channel.pausedReversal
    cases u.motion.bind (·.pausedFrom) with
    | none => simp
    | some x => cases x <;> simp
  have hFollow : (u.motion.bind (·.braking)).map (·.followOn) = some .reversal ↔
      ∃ e, u.motion.bind (·.braking) = some ⟨.reversal, e⟩ := by
    cases u.motion.bind (·.braking) with
    | none => simp
    | some x =>
      obtain ⟨f, e⟩ := x
      simp
  simp only [Channel.reverses, Bool.or_eq_true, Bool.and_eq_true, decide_eq_true_eq, hPaused, hFollow]
  tauto

end

/-- Settles O40: the lines are those of `refusesKind`, of `refuses` and of the arbitration, one after the other. -/
theorem moveChecksAreOrdered : Obligations.MoveChecksAreOrdered := by
  unfold Obligations.MoveChecksAreOrdered
  intro s slot b rest c mode k reply u g cls fails hs hTakes hRun hChan hMode hKind hLatch hFirst
  have hAsks : AsksMove s slot b rest c mode k := ⟨hTakes, hRun, hChan, hMode, hKind⟩
  have hMove : moveChannel c slot mode k (signedAt b 4) { s with normal := rest } =
      ({ s with normal := rest }, some reply) := by
    have hFails : fails = Channel.kindChecks k u ++ (State.moveChecks c g s ++ [(u.owner.any fun o =>
        decide (o.slot ≠ slot ∧ (s.slots.get slot).rank ≤ (s.slots.get o.slot).rank), .busy)]) := by
      have hModes : decide (mode = .express ∧ u.datum ≠ .referenced) = decide (mode ≠ .hold ∧ u.datum ≠ .referenced) := by
        obtain rfl | rfl := moveModeOf_cases hMode <;> simp
      simp only [fails, Channel.kindChecks, State.moveChecks, List.cons_append, List.nil_append, ← Channel.reverses_iff,
        Bool.decide_eq_true, hModes]
      rfl
    change firstFailing fails = some reply at hFirst
    rw [hFails, firstFailing_append, firstFailing_append, ← Channel.refusesKind_eq, ← State.refuses_eq] at hFirst
    cases hk : u.refusesKind k with
    | some r =>
      rw [hk] at hFirst
      exact (moveChannel_refused (by exact hk) _).trans (by rw [← hFirst]; rfl)
    | none =>
      refine (moveChannel_unlatched (by exact hk) (by exact hLatch) _).trans ?_
      rw [hk, Option.none_or] at hFirst
      cases hr : s.refuses c g with
      | some r =>
        rw [hr] at hFirst
        exact (decideMove_refused (by exact hr) _).trans (by rw [← hFirst]; rfl)
      | none =>
        refine (decideMove_passed (by exact hr) _).trans ?_
        rw [hr, Option.none_or, firstFailing_cons] at hFirst
        split at hFirst
        · next hBusy =>
          have hReply : reply = .busy := (Option.some.inj hFirst).symm
          cases hOwner : u.owner with
          | none => rw [hOwner] at hBusy; exact absurd hBusy Bool.false_ne_true
          | some o =>
            rw [hOwner] at hBusy
            obtain ⟨hSlot, hRank⟩ := of_decide_eq_true (Option.any_some ▸ hBusy)
            rw [hReply]
            exact arbitrate_busy (by exact hOwner) (by exact hSlot) (by exact hRank) _
        · exact absurd hFirst (Option.some_ne_none reply).symm
  exact ⟨_, exec_move_answered hAsks hMove, refused_leaves hs rfl⟩

end Sys2Proof.Machine
end

section
/-! PROOFS. The requests that an IDLE channel is granted, MOVE, REFERENCE and GROUP (R120, R128 to R130), and the MOVEs
of hold-to-run that are taken in silence (R122, R125). -/

namespace Sys2Proof.Machine
section
variable {s u : State} {slot : Slot} {b : List Byte} {rest : List Request} {c : Chan} {mode : Mode} {k : GoalKind}
  {g : Grant}

/-! ### A new motion on an IDLE channel (R80, R120, R132) -/

theorem Channel.createMotion_eq {x : Channel} (h : x.mstate = .idle) (now level : Nat) (normal : Bool) (slot : Slot)
    (mode : Mode) (goal : Option Goal) (d : Dir) : x.createMotion now level normal slot mode goal d =
      { x with
        owner := some ⟨slot, false, mode, goal, d⟩
        motion := some (newMotion slot mode goal d level normal)
        accum := List.replicate x.tune.z ⟨0, 0⟩
        mstate := .queued
        holdTimer := if mode = .hold then some (now / 1000 + x.tune.holdTimeout) else none
        statusDue := true } := by
  have hKept : (x.createMotion now level normal slot mode goal d).trips = x.trips := by
    simp [createMotion, grantTimer, zeroAccum, setOwner, setMState, h]
  have hDue : (x.createMotion now level normal slot mode goal d).statusDue = true := by
    simp [createMotion, grantTimer, zeroAccum, setOwner, setMState, h]
  rw [← hKept, ← hDue]
  rfl

/-- The part with a new motion for the channel, at the tail of the start queue. -/
def queueNew (c : Chan) (normal : Bool) (slot : Slot) (mode : Mode) (goal : Option Goal) (d : Dir) (s : State) : State :=
  { s.modCh c (·.createMotion s.clock s.roughness normal slot mode goal d) with startQueue := s.startQueue ++ [c] }

theorem queueNew_oneChannel (c : Chan) (normal : Bool) (slot : Slot) (mode : Mode) (goal : Option Goal) (d : Dir)
    (s : State) : oneChannel c s (queueNew c normal slot mode goal d s) :=
  (modCh_oneChannel c _ s).trans (startQueue_oneChannel c _ _)

theorem queueNew_ch {normal : Bool} {goal : Option Goal} {d : Dir} (h : (s.ch c).mstate = .idle) :
    (queueNew c normal slot mode goal d s).ch c = { s.ch c with
      owner := some ⟨slot, false, mode, goal, d⟩
      motion := some (newMotion slot mode goal d s.roughness normal)
      accum := List.replicate (s.ch c).tune.z ⟨0, 0⟩
      mstate := .queued
      holdTimer := if mode = .hold then some (s.ms + (s.ch c).tune.holdTimeout) else none
      statusDue := true } :=
  (State.ch_modCh_self s c _).trans (Channel.createMotion_eq h ..)

/-- A grant in two parts: `v` is the part with the channel as the grant makes it, `x`, and with the start queue, and
the strip is judged where the datum has changed. -/
theorem grantTo_judged {x : Channel} {v : State}
    (hGrant : (s.ch c).grant s.clock s.roughness (decide (s.band = .normal)) g = x)
    (hv : v = if (s.ch c).mstate = .idle ∧ x.mstate = .queued then
      { s.setCh c x with startQueue := s.startQueue ++ [c] } else s.setCh c x) :
    grantTo c g s = if (s.ch c).datum ≠ x.datum then judgeStrip c v else v := by
  have hCh : v.ch c = x := by rw [hv]; split <;> exact State.ch_setCh_self s c x
  have hQueued : (s.modCh c (·.grant s.clock s.roughness (decide (s.band = .normal)) g)).ch c = x :=
    (State.ch_modCh_self s c _).trans hGrant
  have hSet : s.modCh c (·.grant s.clock s.roughness (decide (s.band = .normal)) g) = s.setCh c x :=
    congrArg (s.setCh c) hGrant
  rw [← hCh, hv, grantTo, hQueued, hSet]
  rfl

theorem grantTo_new {x : Channel} (hGrant : (s.ch c).grant s.clock s.roughness (decide (s.band = .normal)) g = x)
    (hIdle : (s.ch c).mstate = .idle) (hQueued : x.mstate = .queued) (hDatum : x.datum = (s.ch c).datum) :
    grantTo c g s = { s.setCh c x with startQueue := s.startQueue ++ [c] } :=
  (grantTo_judged hGrant (if_pos ⟨hIdle, hQueued⟩).symm).trans (if_neg (not_not.2 hDatum.symm))

/-- The part after a request that has given an IDLE channel a new motion. -/
theorem queueNew_concluded {kind : Nat} {normal : Bool} {goal : Option Goal} {d : Dir} {r : Reply} {trailer : List Nat}
    {t : State} (hs : s.noneDue) (hIdle : (s.ch c).mstate = .idle)
    (ht : t = conclude slot kind (queueNew c normal slot mode goal d { s with normal := rest }, .answer r trailer)) :
    t.normal = rest ∧ t.startQueue = s.startQueue ++ [c] ∧
    t.ch c = { s.ch c with
      owner := some ⟨slot, false, mode, goal, d⟩
      motion := some (newMotion slot mode goal d s.roughness normal)
      accum := List.replicate (s.ch c).tune.z ⟨0, 0⟩
      mstate := .queued
      holdTimer := if mode = .hold then some (s.ms + (s.ch c).tune.holdTimeout) else none } ∧
    answered s t slot kind r trailer ∧ statusHanded c s t ∧ othersKept c s t ∧
    { t with
      normal := s.normal, channels := s.channels, startQueue := s.startQueue, txQueue := s.txQueue
      readout := s.readout } = s := by
  have hNew := queueNew_ch (c := c) (normal := normal) (slot := slot) (mode := mode) (goal := goal) (d := d)
    (s := { s with normal := rest }) hIdle
  have hKept : (s.ch c).statusDue = false := hs.due c
  refine ⟨by rw [ht, conclude_rest]; rfl, by rw [ht, conclude_rest]; rfl, ?_, ?_, ?_, ?_, by rw [ht, conclude_rest]; rfl⟩
  · rw [ht, conclude_answer_ch, hNew, ← hKept]
    rfl
  · exact ht ▸ conclude_answered slot kind r trailer (Nat.le_succ _)
  · exact ht ▸ conclude_statusHanded (by rw [hNew]) (Nat.le_succ _)
  · exact ht ▸ conclude_othersKept slot kind r trailer hs (queueNew_oneChannel c normal slot mode goal d _).others

theorem grantTo_idle {d : Dir} (hState : (s.ch c).mstate = .idle) (hOwner : (s.ch c).owner = none)
    (hDir : g.dir = some d) :
    grantTo c g s = queueNew c (decide (s.band = .normal)) g.slot g.mode (some g.goal) d s := by
  have hGrant : (s.ch c).grant s.clock s.roughness (decide (s.band = .normal)) g =
      (s.ch c).createMotion s.clock s.roughness (decide (s.band = .normal)) g.slot g.mode (some g.goal) d := by
    simp [Channel.grant, Channel.sameGrant, hOwner, hState, hDir]
  have hNew := Channel.createMotion_eq hState s.clock s.roughness (decide (s.band = .normal)) g.slot g.mode
    (some g.goal) d
  exact grantTo_new hGrant hState (by dsimp only; rw [hNew]) (by dsimp only; rw [hNew])

theorem Channel.reverses_of_idle {x : Channel} (h : x.mstate = .idle) : x.reverses = false := by
  simp [Channel.reverses, Channel.pausedReversal, h]

theorem State.refuses_none {d : Option Dir} {cls : MoveClass} (hDir : g.dir = d)
    (hClass : classify (s.ch c).tune.axis false d (s.ch c).position = cls)
    (hAllowed : (s.ch c).allowed.get g.slot = true) (hReverses : (s.ch c).reverses = false)
    (hDatum : g.mode = .hold ∨ (s.ch c).datum = .referenced) (hHigh : s.band ≠ .high)
    (hLow : s.band = .low → cls = .opening) (hStrikes : g.mode = .hold ∨ cls ≠ .close ∨ (s.ch c).strikes ≠ 3) :
    s.refuses c g = none := by
  have hBand : ¬(s.band = .high ∨ (s.band = .low ∧ (cls = .close ∨ cls = .tilt))) := by
    rintro (h | ⟨hl, h | h⟩)
    · exact hHigh h
    · rw [hLow hl] at h; exact absurd h (by decide)
    · rw [hLow hl] at h; exact absurd h (by decide)
  have hStruck : ¬(g.mode = .express ∧ cls = .close ∧ (s.ch c).strikes = Config.maxStrikes) := by
    rintro ⟨hm, hc, h3⟩
    obtain h | h | h := hStrikes
    · rw [h] at hm; exact absurd hm (by decide)
    · exact h hc
    · exact h h3
  have hUnref : ¬(g.mode ≠ .hold ∧ (s.ch c).datum ≠ .referenced) := by tauto
  simp [State.refuses, hDir, hClass, hAllowed, hReverses, if_neg hUnref, if_neg hBand, if_neg hStruck]

/-- Settles O39: every check passes, nobody owns the channel, and the grant creates the motion. -/
theorem moveIsGrantedFromIdle : Obligations.MoveIsGrantedFromIdle := by
  unfold Obligations.MoveIsGrantedFromIdle
  intro s slot b rest c mode k d u goal cls hs hTakes hRun hChan hMode hKind hEnable hTilt hLatch hAllowed hDatum hHigh
    hLow hStrikes hState hMotion hOwner hDir
  have hAsks : AsksMove s slot b rest c mode k := ⟨hTakes, hRun, hChan, hMode, hKind⟩
  have hNotTilt : ¬(k = .toEnd .toTilt ∧ u.tune.axis = .oneSided) := fun h => by
    rw [hTilt h.1] at h; exact absurd h.2 (by decide)
  have hGDir : (u.wish slot mode k (signedAt b 4)).dir = some d := hDir
  have hGSame : u.sameGrant (u.wish slot mode k (signedAt b 4)) = false := by simp [Channel.sameGrant, hOwner]
  have hMove : moveChannel c slot mode k (signedAt b 4) { s with normal := rest } =
      (queueNew c (decide (s.band = .normal)) slot mode (some goal) d { s with normal := rest },
        some (if u.clamps mode k (signedAt b 4) then .clamped else .accepted)) := by
    refine (moveChannel_unlatched ?_ (by exact hLatch) _).trans ?_
    · exact (Channel.refusesKind_eq u).trans (by simp [firstFailing, Channel.kindChecks, hEnable, hNotTilt])
    refine (decideMove_passed ?_ _).trans ((arbitrate_unowned (by exact hOwner) _).trans ?_)
    · exact State.refuses_none (by exact hDir) (cls := cls) rfl hAllowed (Channel.reverses_of_idle hState) hDatum hHigh
        hLow hStrikes
    · rw [grantTo_idle (by exact hState) (by exact hOwner) (by exact hDir)]
      refine Prod.ext rfl ?_
      change some (grantReply (u.wish slot mode k (signedAt b 4)) _ u) = _
      simp [grantReply, hGSame, hGDir]
      rfl
  obtain ⟨hNormal, hQueue, hCh, hAnswered, hStatus, hOthers, hRest⟩ := queueNew_concluded hs (by exact hState) rfl
  refine ⟨_, exec_move_answered hAsks hMove, hNormal, hQueue, ?_, ?_, ?_, ?_, ?_, ?_, hAnswered, hStatus, hOthers, hRest⟩
  all_goals rw [hCh]

/-- Settles O44. -/
theorem referenceIsGranted : Obligations.ReferenceIsGranted := by
  unfold Obligations.ReferenceIsGranted
  intro s slot b rest c u hs hTakes hRun hChan hEnable hAllowed hState hBand
  have hHandle : handleReference slot b { s with normal := rest } =
      (queueNew c true slot .reference none .dec { s with normal := rest }, .answer .accepted [byteAt b 1]) := by
    rw [handleReference, if_neg (not_not.2 (by exact hRun)), hChan]
    have hEnable' : (!u.tune.enable) = false := by simp [hEnable]
    have hAllowed' : (!u.allowed.get slot) = false := by simp [hAllowed]
    refine (if_neg (by exact ne_true_of_eq_false hEnable')).trans ?_
    refine (if_neg (by exact ne_true_of_eq_false hAllowed')).trans ?_
    refine (if_neg (not_not.2 (by exact hState))).trans ?_
    exact (if_neg (not_not.2 (by exact hBand))).trans rfl
  have hExec := exec_reference hTakes
  rw [State.taken_of_run hRun, hHandle] at hExec
  obtain ⟨hNormal, hQueue, hCh, hAnswered, hStatus, hOthers, hRest⟩ := queueNew_concluded hs (by exact hState) rfl
  refine ⟨_, hExec, hNormal, hQueue, ?_, ?_, ?_, ?_, by rw [hCh]; rfl, hAnswered, hStatus, hOthers, hRest⟩
  all_goals rw [hCh]

/-! ### Hold-to-run (R119, R122, R125) -/

/-- The part after a silent change of the channel that triggers no STATUS. -/
theorem flush_quiet {f : Channel → Channel} (hs : s.noneDue) (hDue : (f (s.ch c)).statusDue = (s.ch c).statusDue) :
    flush (State.modCh { s with normal := rest } c f) = State.modCh { s with normal := rest } c f :=
  flush_of_noneDue (oneChannel.noneDue (c := c) (modCh_oneChannel c f _) (by exact hs)
    ((congrArg Channel.statusDue (State.ch_modCh_self _ c f)).trans (hDue.trans (hs.due c))))

theorem moveChannel_matching (hKind : (s.ch c).refusesKind k = none) {x : Int}
    (hMatch : (s.ch c).matchesLatch ((s.ch c).wish slot mode k x) = true) :
    moveChannel c slot mode k x s = (s.modCh c (·.restartLatch s.clock slot), none) := by
  simp only [moveChannel, hKind, hMatch, if_true]

theorem moveChannel_unmatched (hKind : (s.ch c).refusesKind k = none) {x : Int}
    (hMatch : (s.ch c).matchesLatch ((s.ch c).wish slot mode k x) = false) :
    moveChannel c slot mode k x s = decideMove c ((s.ch c).wish slot mode k x) ((s.ch c).clamps mode k x)
      (s.modCh c (·.dropLatch slot)) := by
  simp only [moveChannel, hKind, hMatch, Bool.false_eq_true, if_false]

theorem State.refuses_locked (h : (s.ch c).allowed.get g.slot = false) : s.refuses c g = some .locked := by
  simp [State.refuses, h]

/-- Settles O41. -/
theorem holdToRunIsSilent : Obligations.HoldToRunIsSilent := by
  unfold Obligations.HoldToRunIsSilent
  refine ⟨?refresh, ?latch⟩
  case refresh =>
    intro s slot b rest c k o u g hs hTakes hRun hChan hMode hKind hPasses hLatch hRefuses hOwner hSlot hHold hDir
    have hRefresh : isRefresh g o = true := decide_eq_true ⟨hSlot, rfl, hHold, hDir⟩
    have hMove : moveChannel c slot .hold k (signedAt b 4) { s with normal := rest } =
        (State.modCh { s with normal := rest } c (·.grantTimer s.clock .hold), none) :=
      (moveChannel_unlatched (by exact hPasses) (by exact hLatch) _).trans
        ((decideMove_passed (by exact hRefuses) _).trans (arbitrate_refresh (by exact hOwner) hRefresh _))
    have hExec := exec_move_silent ⟨hTakes, hRun, hChan, hMode, hKind⟩ hMove
    rw [flush_quiet hs rfl] at hExec
    have hCh := State.ch_modCh_self { s with normal := rest } c (·.grantTimer s.clock .hold)
    exact ⟨_, hExec, rfl, by rw [hCh]; rfl, by rw [hCh]; rfl, (modCh_oneChannel c _ _).others, rfl⟩
  case latch =>
    intro s slot b rest c k l u hs hTakes hRun hChan hMode hKind hPasses hLatch
    have hMatches : u.matchesLatch (u.wish slot .hold k (signedAt b 4)) =
        decide (u.goalOf .hold k (signedAt b 4) = .toEnd l.goal) := by
      have hLatch' : u.latches.get slot = some l := hLatch
      simp [Channel.matchesLatch, Channel.wish, hLatch']
    refine ⟨fun hGoal => ?_, fun hGoal hLocked => ?_⟩
    · have hMove : moveChannel c slot .hold k (signedAt b 4) { s with normal := rest } =
          (State.modCh { s with normal := rest } c (·.restartLatch s.clock slot), none) :=
        moveChannel_matching (by exact hPasses) (hMatches.trans (decide_eq_true hGoal))
      have hExec := exec_move_silent ⟨hTakes, hRun, hChan, hMode, hKind⟩ hMove
      rw [flush_quiet hs rfl] at hExec
      have hCh := State.ch_modCh_self { s with normal := rest } c (·.restartLatch s.clock slot)
      have hLatches : (u.restartLatch s.clock slot).latches =
          u.latches.set slot (some ⟨l.goal, s.ms + u.tune.holdTimeout⟩) := by
        simp only [Channel.restartLatch, hLatch]
        rfl
      refine ⟨_, hExec, rfl, ?_, fun j hj => ?_, by rw [hCh]; rfl, (modCh_oneChannel c _ _).others, rfl⟩
      · rw [hCh]
        exact (congrArg (PerSlot.get · slot) hLatches).trans (PerSlot.get_set_self _ _ _)
      · rw [hCh]
        exact (congrArg (PerSlot.get · j) hLatches).trans (PerSlot.get_set_ne _ _ hj)
    · have hCh := State.ch_modCh_self { s with normal := rest } c (·.dropLatch slot)
      have hMove : moveChannel c slot .hold k (signedAt b 4) { s with normal := rest } =
          (State.modCh { s with normal := rest } c (·.dropLatch slot), some .locked) :=
        (moveChannel_unmatched (by exact hPasses) (by exact hMatches.trans (decide_eq_false hGoal))).trans
          (decideMove_refused (State.refuses_locked (by rw [hCh]; exact hLocked)) _)
      refine ⟨_, exec_move_answered ⟨hTakes, hRun, hChan, hMode, hKind⟩ hMove, ?_, fun j hj => ?_, ?_, ?_, ?_, ?_⟩
      · rw [conclude_answer_ch, hCh]
        exact PerSlot.get_set_self _ _ _
      · rw [conclude_answer_ch, hCh]
        exact PerSlot.get_set_ne _ _ hj
      · exact conclude_answered slot 1 _ _ (Nat.le_succ _)
      · rw [conclude_answer_ch, hCh]
        exact congrArg (fun x : Bool => { u with statusDue := x }) (hs.due c).symm
      · exact conclude_othersKept slot 1 _ _ hs (modCh_oneChannel c _ _).others
      · rw [conclude_rest]
        rfl

end

end Sys2Proof.Machine
end

section
/-! PROOFS. A GROUP on IDLE channels (R128, R129). -/

namespace Sys2Proof.Machine
section
variable {s : State} {slot : Slot} {c : Chan} {e : GoalEnd} {mask : Nat}

/-- An IDLE channel of which a GROUP toward an end passes every check, with a direction. -/
structure GroupReady (s : State) (slot : Slot) (e : GoalEnd) (c : Chan) : Prop where
  idle : (s.ch c).mstate = .idle
  unowned : (s.ch c).owner = none
  kind : (s.ch c).refusesKind (.toEnd e) = none
  passes : s.refuses c ((s.ch c).wish slot .express (.toEnd e) 0) = none
  dir : (goalDir (s.ch c).tune.axis (.toEnd e) (s.ch c).position).isSome = true

theorem State.refuses_congr {t : State} (hCh : t.ch c = s.ch c) (hBand : t.band = s.band) (g : Grant) :
    t.refuses c g = s.refuses c g := by
  simp only [State.refuses, hCh, hBand]

theorem GroupReady.congr {t : State} (h : GroupReady s slot e c) (hCh : t.ch c = s.ch c) (hBand : t.band = s.band) :
    GroupReady t slot e c where
  idle := hCh ▸ h.idle
  unowned := hCh ▸ h.unowned
  kind := hCh ▸ h.kind
  passes := by rw [State.refuses_congr hCh hBand, hCh]; exact h.passes
  dir := hCh ▸ h.dir

/-- The channel with the motion that a GROUP toward an end gives it. -/
def State.grouped (s : State) (slot : Slot) (e : GoalEnd) (x : Channel) : Channel :=
  x.createMotion s.clock s.roughness (decide (s.band = .normal)) slot .express (some (.toEnd e))
    ((goalDir x.tune.axis (.toEnd e) x.position).getD .inc)

theorem groupChannel_granted (h : GroupReady s slot e c) :
    groupChannel c slot e s =
      ({ s.modCh c (s.grouped slot e) with startQueue := s.startQueue ++ [c] }, some .accepted) := by
  obtain ⟨d, hDir⟩ := Option.isSome_iff_exists.1 h.dir
  have hWish : ((s.ch c).wish slot .express (.toEnd e) 0).dir = some d := hDir
  have hReply : grantReply ((s.ch c).wish slot .express (.toEnd e) 0) false (s.ch c) = .accepted := by
    simp [grantReply, Channel.sameGrant, h.unowned, hWish]
  have hGrouped : s.grouped slot e (s.ch c) = (s.ch c).createMotion s.clock s.roughness (decide (s.band = .normal)) slot
      .express (some (.toEnd e)) d := by
    rw [State.grouped, hDir]
    rfl
  simp only [groupChannel, h.kind]
  rw [decideMove_passed h.passes, arbitrate_unowned h.unowned, hReply, grantTo_idle h.idle h.unowned hWish, queueNew,
    State.modCh, State.modCh, hGrouped]
  rfl

/-- A GROUP on channels that are ready grants each masked one its motion and queues them in their order. -/
theorem groupChannels_granted : ∀ {l : List Chan} {s : State}, l.Nodup →
    (∀ c ∈ l, inMask mask c = true → GroupReady s slot e c) →
    groupChannels slot e mask l s =
      ({ s with
        channels := PerChan.ofFn fun c => if c ∈ l.filter (inMask mask) then s.grouped slot e (s.ch c) else s.ch c
        startQueue := s.startQueue ++ l.filter (inMask mask) },
      (l.filter (inMask mask)).map fun c => (c, .accepted))
  | [], s, _, _ => by
    have hCh : PerChan.ofFn (fun c => s.ch c) = s.channels := PerChan.ext_get fun c => PerChan.get_ofFn _ c
    simp [groupChannels, hCh]
  | c :: cs, s, hNodup, hReady => by
    obtain ⟨hNew, hNodup'⟩ := List.nodup_cons.1 hNodup
    cases hMask : inMask mask c with
    | false =>
      have ih := groupChannels_granted (l := cs) (s := s) hNodup' fun d hd => hReady d (List.mem_cons_of_mem c hd)
      simp only [groupChannels, hMask, Bool.false_eq_true, if_false, List.filter_cons, ih]
    | true =>
      have hGrant := groupChannel_granted (hReady c List.mem_cons_self hMask)
      have ih := groupChannels_granted (l := cs)
        (s := { s.modCh c (s.grouped slot e) with startQueue := s.startQueue ++ [c] }) hNodup' fun d hd hm =>
          (hReady d (List.mem_cons_of_mem c hd) hm).congr
            (State.ch_modCh_ne s _ fun h => hNew (h ▸ hd)) rfl
      simp only [groupChannels, hMask, if_true, hGrant, ih, List.filter_cons, List.map_cons, Option.getD_some,
        List.append_assoc, List.singleton_append]
      have hChannels : (PerChan.ofFn fun d => if d ∈ cs.filter (inMask mask) then
          s.grouped slot e ((s.modCh c (s.grouped slot e)).ch d) else (s.modCh c (s.grouped slot e)).ch d) =
          PerChan.ofFn fun d => if d ∈ c :: cs.filter (inMask mask) then s.grouped slot e (s.ch d) else s.ch d := by
        refine PerChan.ext_get fun d => ?_
        rw [PerChan.get_ofFn, PerChan.get_ofFn]
        by_cases hd : d = c
        · have hOut : d ∉ cs.filter (inMask mask) := fun h => hNew (hd ▸ (List.mem_filter.1 h).1)
          rw [if_neg hOut, if_pos (hd ▸ List.mem_cons_self), hd, State.ch_modCh_self]
        · rw [State.ch_modCh_ne s _ hd]
          simp only [List.mem_cons, hd, false_or]
      have hState := congrArg (fun x => ({ s with
        channels := x, startQueue := s.startQueue ++ c :: cs.filter (inMask mask) } : State)) hChannels
      exact Prod.ext hState rfl

theorem outcomeMask_granted (p : Reply → Bool) : outcomeMask p ((Chan.all.filter (inMask mask)).map fun c => (c, .accepted)) =
    if p .accepted then maskOf (inMask mask) else 0 := by
  have hAny (c : Chan) : ((Chan.all.filter (inMask mask)).map fun c => ((c, .accepted) : Chan × Reply)).any
      (fun x => x.1 = c && p x.2) = (inMask mask c && p .accepted) := by
    rw [Bool.eq_iff_iff, List.any_eq_true]
    simp only [List.mem_map, List.mem_filter, Bool.and_eq_true, decide_eq_true_eq]
    constructor
    · rintro ⟨_, ⟨d, ⟨_, hMask⟩, rfl⟩, rfl, hp⟩
      exact ⟨hMask, hp⟩
    · rintro ⟨hMask, hp⟩
      exact ⟨_, ⟨c, ⟨Chan.mem_all c, hMask⟩, rfl⟩, rfl, hp⟩
  rw [outcomeMask, funext hAny]
  cases p .accepted
  · simp only [Bool.and_false, Bool.false_eq_true, if_false]
    rfl
  · simp only [Bool.and_true, if_true]

theorem groupOutcome_granted (l : List Chan) : groupOutcome (l.map fun c => (c, .accepted)) = .accepted := by
  rw [groupOutcome, List.find?_eq_none.2]
  · rfl
  · simp [Reply.grants]

theorem granted_ch (p : Chan → Prop) [DecidablePred p] (f : Channel → Channel) (q : List Chan) (c : Chan) :
    ({ s with channels := PerChan.ofFn fun c => if p c then f (s.ch c) else s.ch c, startQueue := q } : State).ch c =
      if p c then f (s.ch c) else s.ch c :=
  PerChan.get_ofFn _ c

theorem State.grouped_fields (slot : Slot) (e : GoalEnd) {x : Channel} (h : x.mstate = .idle) :
    let y : Channel := { s.grouped slot e x with statusDue := false }
    y.mstate = .queued ∧ y.motion.map (fun m => (m.mode, m.goal)) = some (.express, some (.toEnd e)) ∧
      y.owner.map (fun o => (o.slot, o.pending)) = some (slot, false) ∧ y.latches = x.latches := by
  intro y
  have hNew := Channel.createMotion_eq h s.clock s.roughness (decide (s.band = .normal)) slot .express
    (some (.toEnd e)) ((goalDir x.tune.axis (.toEnd e) x.position).getD .inc)
  simp only [y, State.grouped, hNew]
  exact ⟨trivial, rfl, rfl, trivial⟩

/-- Settles O43. -/
theorem groupIsGrantedFromIdle : Obligations.GroupIsGrantedFromIdle := by
  unfold Obligations.GroupIsGrantedFromIdle
  intro s slot b rest e hs hTakes hRun hGoal hReady
  have hGrant := groupChannels_granted (mask := byteAt b 1) (slot := slot) (e := e) (l := Chan.all)
    (s := { s with normal := rest }) (by decide) fun c _ hMask => by
      obtain ⟨hIdle, _, hOwner, hKind, hPasses, hDir⟩ := hReady c hMask
      exact ⟨hIdle, hOwner, hKind, hPasses, hDir⟩
  have hHandle : handleGroup slot b { s with normal := rest } =
      ((groupChannels slot e (byteAt b 1) Chan.all { s with normal := rest }).1,
        .answer .accepted [maskOf (inMask (byteAt b 1)), 0]) := by
    rw [handleGroup]
    refine (if_neg (not_not.2 (by exact hRun))).trans ?_
    simp only [hGoal, hGrant, groupOutcome_granted, outcomeMask_granted]
    rfl
  have hExec := exec_group hTakes
  rw [State.taken_of_run hRun, hHandle, hGrant] at hExec
  refine ⟨_, hExec, by rw [conclude_rest], by rw [conclude_rest], fun c => ?_, ?_, by rw [conclude_rest]⟩
  · rw [conclude_answer_ch, granted_ch]
    cases hMask : inMask (byteAt b 1) c with
    | false =>
      have hOut : c ∉ Chan.all.filter (inMask (byteAt b 1)) := by simp [hMask]
      rw [if_neg hOut]
      exact Channel.unmarked (hs.due c)
    | true =>
      rw [if_pos (List.mem_filter.2 ⟨Chan.mem_all c, hMask⟩)]
      exact State.grouped_fields (s := { s with normal := rest }) slot e (hReady c hMask).1
  · exact conclude_answered slot 2 _ _ (Nat.le_succ _)

end

end Sys2Proof.Machine
end

section
/-! PROOFS. A granted MOVE over a motion, over a brake and over nothing (R102, R112, R119 to R122, R124). -/

namespace Sys2Proof.Machine
/-! ### What a grant takes from the motion that is owned (R121, R124) -/

section
variable {s : State} {u w v : Channel} {o : Owner} {g : Grant} {slot : Slot} {now : Nat} {m : Motion} {d : Dir}

/-- A replacement changes latches, datum, trip count and the STATUS mark only. -/
theorem Channel.supersede_rest (c : Channel) (now : Nat) (slot : Slot) : c.supersede now slot = { c with
    latches := (c.supersede now slot).latches, datum := (c.supersede now slot).datum
    trips := (c.supersede now slot).trips, statusDue := (c.supersede now slot).statusDue } := by
  have hLatch (o : Owner) : c.latch now o = { c with latches := (c.latch now o).latches } := by
    unfold Channel.latch
    split <;> rfl
  unfold Channel.supersede
  split
  · rfl
  · next o _ =>
    split
    · dsimp only
      split <;> rfl
    · dsimp only
      rw [hLatch]
      split <;> rfl

theorem Channel.supersede_unowned (h : u.owner = none) : u.supersede now slot = u := by
  simp only [Channel.supersede, h]

theorem Channel.supersede_datum (h : u.owner = some o) : (u.supersede now slot).datum =
    if o.mode = .reference ∧ u.datum = .seeking then .unreferenced else u.datum := by
  have hKept : (if o.slot = slot then u else u.latch now o).datum = u.datum := by split <;> simp
  simp only [Channel.supersede, h, hKept]
  split
  · rfl
  · exact hKept

theorem Channel.supersede_latches (h : u.owner = some o) : (u.supersede now slot).latches =
    if o.slot = slot then u.latches else (u.latch now o).latches := by
  have hKept (x : Channel) : (if o.mode = .reference ∧ x.datum = .seeking then x.setDatum .unreferenced else x).latches =
      x.latches := by split <;> rfl
  simp only [Channel.supersede, h, hKept]
  split <;> rfl

/-- A grant leaves what the replacement leaves, seen from a channel `w` that agrees with the one before the grant where
the replacement looks. -/
theorem grantLeaves_of_supersede (hOwner : u.owner = some o) (hw : w.owner = u.owner) (hLatches : w.latches = u.latches)
    (hDatum : w.datum = u.datum) (hTune : w.tune = u.tune) (hvLatches : v.latches = (w.supersede s.clock g.slot).latches)
    (hvDatum : v.datum = (w.supersede s.clock g.slot).datum)
    (hvTimer : v.holdTimer = if g.mode = .hold then some (s.ms + u.tune.holdTimeout) else none) :
    grantLeaves s g o u v := by
  refine ⟨?_, ?_, hvTimer⟩
  · rw [hvLatches, Channel.supersede_latches (hw.trans hOwner), hLatches]
    unfold Channel.latch
    obtain ⟨_, _, mode, goal, _⟩ := o
    cases mode <;> rcases goal with _ | (_ | _) <;> simp [hLatches, hTune, State.ms]
  · rw [hvDatum, Channel.supersede_datum (hw.trans hOwner), hDatum]

/-- The motion replaced in place. -/
theorem Channel.replaceMotion_eq (now : Nat) (g : Grant) (m : Motion) (c : Channel) : c.replaceMotion now g m = { c with
    latches := (c.supersede now g.slot).latches, datum := (c.supersede now g.slot).datum
    trips := (c.supersede now g.slot).trips
    owner := some ⟨g.slot, false, g.mode, some g.goal, g.dir.getD ((c.owner.map (·.dir)).getD m.dir)⟩
    motion := some { m with
      owner := some g.slot, mode := g.mode, goal := some g.goal, dir := g.dir.getD m.dir, runTime := 0 }
    runSince := c.runSince.map fun _ => now / 1000
    holdTimer := if g.mode = .hold then some (now / 1000 + c.tune.holdTimeout) else none
    statusDue := (c.replaceMotion now g m).statusDue } := by
  unfold Channel.replaceMotion
  rw [Channel.supersede_rest]
  rfl

theorem Channel.replaceMotion_statusDue (h : u.owner = some o) (hSlot : o.slot ≠ g.slot) :
    (u.replaceMotion now g m).statusDue = true := by
  have hOwner : (u.supersede now g.slot).owner = some o := by rw [Channel.supersede_rest]; exact h
  have hStays (x : Owner) (hx : x.slot = g.slot) : x.stays (u.supersede now g.slot).owner = false := by
    simp [hOwner, Owner.stays, hx, hSlot]
  unfold Channel.replaceMotion Channel.setOwner
  simp [Channel.grantTimer, Channel.zeroRun, Channel.mapMotion, hStays]

/-- The grant made the follow-on of the brake. -/
theorem Channel.setFollowOn_eq (now : Nat) (g : Grant) (d : Dir) (ended : Bool) (c : Channel) :
    c.setFollowOn now g d ended = { c with
      latches := (c.supersede now g.slot).latches, datum := (c.supersede now g.slot).datum
      trips := (c.supersede now g.slot).trips
      owner := some ⟨g.slot, true, g.mode, some g.goal, d⟩
      motion := c.motion.map fun m => { m with runTime := 0, braking := some ⟨.motion g.slot g.mode g.goal d, ended⟩ }
      holdTimer := if g.mode = .hold then some (now / 1000 + c.tune.holdTimeout) else none
      statusDue := (c.setFollowOn now g d ended).statusDue } := by
  unfold Channel.setFollowOn
  rw [Channel.supersede_rest]
  rfl

theorem Channel.setFollowOn_statusDue (now : Nat) (g : Grant) (d : Dir) (ended : Bool) (c : Channel) :
    (c.setFollowOn now g d ended).statusDue = true := by
  have hStays (x : Option Owner) : Owner.stays ⟨g.slot, true, g.mode, some g.goal, d⟩ x = false := by
    cases x <;> simp [Owner.stays]
  simp [Channel.setFollowOn, Channel.setOwner, Channel.mapMotion, Channel.grantTimer, hStays]

end

/-! ### The part after a granted MOVE -/

section
variable {s : State} {slot : Slot} {b : List Byte} {rest : List Request} {c : Chan} {mode : Mode} {k : GoalKind}
  {g : Grant} {x : Channel} {o : Owner}

theorem judgeStrip_untripped (h : (s.ch c).stripTrips = false) : judgeStrip c s = s := by
  rw [judgeStrip, h]
  exact if_neg Bool.false_ne_true

theorem arbitrate_granted (hArb : (s.ch c).owner = none ∨ ∃ o, (s.ch c).owner = some o ∧ isRefresh g o = false ∧
    (o.slot = g.slot ∨ (s.slots.get o.slot).rank < (s.slots.get g.slot).rank)) (clamped : Bool) :
    arbitrate c g clamped s = (grantTo c g s, some (grantReply g clamped (s.ch c))) := by
  obtain hNone | ⟨o, hOwner, hRefresh, hRank⟩ := hArb
  · exact arbitrate_unowned hNone clamped
  · simp only [arbitrate, hOwner, hRefresh, Bool.false_eq_true, if_false]
    exact if_pos hRank

/-- A MOVE that arbitration grants on a channel that is not made to wait: `x` is what the grant makes of it, and the
strip does not trip there. -/
theorem exec_move_granted (h : s.moves slot b rest c mode k g)
    (hArb : (s.ch c).owner = none ∨ ∃ o, (s.ch c).owner = some o ∧ isRefresh g o = false ∧
      (o.slot = g.slot ∨ (s.slots.get o.slot).rank < (s.slots.get g.slot).rank))
    (hGrant : (s.ch c).grant s.clock s.roughness (decide (s.band = .normal)) g = x)
    (hNotNew : (s.ch c).mstate = .idle → x.mstate ≠ .queued) (hStrip : x.datum ≠ (s.ch c).datum → x.stripTrips = false) :
    ∃ t, exec .move s = .next t ∧ t.normal = rest ∧ t.ch c = { x with statusDue := false } ∧
      (x.statusDue = true → statusHanded c s t) ∧
      answered s t slot 1 (grantReply g ((s.ch c).clamps mode k (signedAt b 4)) (s.ch c)) [byteAt b 1] ∧
      othersKept c s t ∧
      { t with normal := s.normal, channels := s.channels, txQueue := s.txQueue, readout := s.readout } = s := by
  obtain ⟨hs, hTakes, hRun, hChan, hMode, hKind, hPasses, hLatch, rfl, hRefuses⟩ := h
  have hTo : grantTo c ((s.ch c).wish slot mode k (signedAt b 4)) { s with normal := rest } =
      State.setCh { s with normal := rest } c x := by
    refine (grantTo_judged (by exact hGrant) (if_neg fun h => hNotNew h.1 h.2).symm).trans ?_
    split
    · next hDatum => exact judgeStrip_untripped (by rw [State.ch_setCh_self]; exact hStrip (Ne.symm hDatum))
    · rfl
  have hMove : moveChannel c slot mode k (signedAt b 4) { s with normal := rest } =
      (State.setCh { s with normal := rest } c x,
        some (grantReply ((s.ch c).wish slot mode k (signedAt b 4)) ((s.ch c).clamps mode k (signedAt b 4)) (s.ch c))) :=
    (moveChannel_unlatched (by exact hPasses) (by exact hLatch) _).trans
      ((decideMove_passed (by exact hRefuses) _).trans
        ((arbitrate_granted (by exact hArb) _).trans (Prod.ext hTo rfl)))
  have hCh : (State.setCh { s with normal := rest } c x).ch c = x := State.ch_setCh_self _ c x
  refine ⟨_, exec_move_answered ⟨hTakes, hRun, hChan, hMode, hKind⟩ hMove, by rw [conclude_rest]; rfl, ?_, fun hDue => ?_, ?_, ?_, by rw [conclude_rest]; rfl⟩
  · rw [conclude_answer_ch, hCh]
  · exact conclude_statusHanded (by rw [hCh]; exact hDue) (Nat.le_succ _)
  · exact conclude_answered slot 1 _ _ (Nat.le_succ _)
  · exact conclude_othersKept slot 1 _ _ hs (setCh_oneChannel c x _).others

theorem State.moves.wishes (h : s.moves slot b rest c mode k g) : g.slot = slot ∧ g.mode = mode ∧ g.mode ≠ .reference ∧
    g.dir = goalDir (s.ch c).tune.axis g.goal (s.ch c).position := by
  obtain ⟨-, -, -, -, hMode, -, -, -, rfl, -⟩ := h
  refine ⟨rfl, rfl, ?_, rfl⟩
  obtain rfl | rfl := moveModeOf_cases hMode <;> exact nofun

theorem State.takesOver.arbitrates (h : s.takesOver g o) : isRefresh g o = false ∧
    (o.slot = g.slot ∨ (s.slots.get o.slot).rank < (s.slots.get g.slot).rank) := by
  obtain ⟨hSlot, hRank⟩ | ⟨hSlot, hRefresh, -⟩ := h
  · exact ⟨by simp [isRefresh, hSlot], .inr hRank⟩
  · refine ⟨?_, .inl hSlot⟩
    unfold isRefresh
    exact decide_eq_false fun hr => hRefresh hr.2

theorem State.takesOver.differs (h : s.takesOver g o) (hOwner : x.owner = some o) : x.sameGrant g = false := by
  simp only [Channel.sameGrant, hOwner, decide_eq_false_iff_not]
  rintro ⟨hSlot, hMode, hGoal⟩
  obtain ⟨hOther, -⟩ | ⟨-, -, hDiffers⟩ := h
  · exact hOther hSlot
  · exact hDiffers ⟨hMode, hGoal⟩

/-! ### What the grant makes of the channel, by its motion state (R102, R120) -/

variable {u : Channel} {m : Motion} {now level : Nat} {normal : Bool}

theorem Channel.pausedMaster_mstate (h : u.pausedMaster = true) : u.mstate = .paused := by
  unfold Channel.pausedMaster at h
  exact of_decide_eq_true (Bool.and_eq_true _ _ ▸ h).1

theorem Channel.grant_inFlight (hSame : u.sameGrant g = false) (hMotion : u.motion = some m)
    (hState : u.mstate = .starting ∨ u.mstate = .running ∨ u.pausedMaster = true) :
    u.grant now level normal g = if g.dir = none ∨ g.dir = some m.dir then u.replaceInFlight now g m
      else (u.enterBraking now ⟨.none, false⟩).setFollowOn now g (g.dir.getD m.dir) false := by
  obtain h | h | h := hState
  · simp [Channel.grant, hSame, hMotion, h]
  · simp [Channel.grant, hSame, hMotion, h]
  · simp [Channel.grant, hSame, hMotion, Channel.pausedMaster_mstate h]

theorem Channel.grant_queued (hSame : u.sameGrant g = false) (hMotion : u.motion = some m) (hState : u.mstate = .queued) :
    u.grant now level normal g = u.replaceMotion now g m := by
  simp [Channel.grant, hSame, hMotion, hState]

theorem Channel.grant_following {slot' : Slot} {mode' : Mode} {goal' : Goal} {d : Dir} {ended : Bool}
    (hSame : u.sameGrant g = false) (hMotion : u.motion = some m) (hState : u.mstate = .braking)
    (hBrake : m.braking = some ⟨.motion slot' mode' goal' d, ended⟩) :
    u.grant now level normal g = u.setFollowOn now g (g.dir.getD d) ended := by
  simp [Channel.grant, hSame, hMotion, hState, hBrake]

theorem Channel.grant_braking {d : Dir} {ended : Bool} (hSame : u.sameGrant g = false) (hMotion : u.motion = some m)
    (hState : u.mstate = .braking) (hBrake : m.braking = some ⟨.none, ended⟩) (hDir : g.dir = some d) :
    u.grant now level normal g = u.setFollowOn now g d ended := by
  simp [Channel.grant, hSame, hMotion, hState, hBrake, hDir]

theorem Channel.grant_still (hSame : u.sameGrant g = false) (hDir : g.dir = none)
    (hState : u.mstate = .idle ∨ (u.mstate = .braking ∧ (u.motion.bind (·.braking)).map (·.followOn) = some .none)) :
    u.grant now level normal g = u := by
  obtain hState | ⟨hState, hFollow⟩ := hState
  · simp [Channel.grant, hSame, hState, hDir]
  · obtain ⟨⟨f, ended⟩, hBrake, rfl⟩ := Option.map_eq_some_iff.1 hFollow
    obtain ⟨m, hMotion, hBraking⟩ := Option.bind_eq_some_iff.1 hBrake
    simp [Channel.grant, hSame, hState, hMotion, hBraking, hDir]

theorem Channel.grant_repeated (hSame : u.sameGrant g = true) :
    u.grant now level normal g = if g.mode = .hold then u.grantTimer now .hold else u := by
  simp [Channel.grant, hSame]

theorem Channel.stripTrips_of_mstate (h : u.mstate ≠ .starting ∧ u.mstate ≠ .running) : u.stripTrips = false := by
  simp [Channel.stripTrips, h.1, h.2]

/-- The strip that does not trip goes on so where nothing it looks at changes but a lost seek. -/
theorem Channel.stripTrips_congr {y : Channel} (hTune : y.tune = u.tune) (hStrip : y.strip = u.strip)
    (hState : y.mstate = u.mstate) (hBridge : y.bridge = u.bridge) (hPos : y.position = u.position)
    (hDatum : y.datum = .referenced ↔ u.datum = .referenced) : y.stripTrips = u.stripTrips := by
  simp only [Channel.stripTrips, Channel.drivesTowardZero, hTune, hStrip, hState, hBridge, hPos, hDatum]

theorem grantReply_new {clamped : Bool} (h : u.sameGrant g = false) : grantReply g clamped u =
    if g.dir = none then .atTarget else if clamped then .clamped else .accepted := by
  simp [grantReply, h]

/-- A goal that gives no direction holds an end condition (R84, R88). -/
theorem endCause_of_still {t : ChanTuning} {goal : Goal} {p : Int} (h : goalDir t.axis goal p = none) (datum : Datum)
    (d : Dir) : endCause t datum goal d p ≠ none := by
  intro hNone
  obtain ⟨hClosed, hTarget, -⟩ := endCause_eq_none.1 hNone
  have hClose (hDir : goalDir t.axis (.toEnd .toClose) p = none) : t.axis = .twoSided ∧ p = 0 := by
    cases hAxis : t.axis with
    | oneSided => rw [hAxis] at hDir; exact absurd hDir (Option.some_ne_none _)
    | twoSided =>
      rw [hAxis, goalDir_close_twoSided] at hDir
      split_ifs at hDir
      exact ⟨rfl, by omega⟩
  cases goal with
  | toEnd e =>
    cases e with
    | toClose => exact hClosed ⟨.inl rfl, .inl (hClose h)⟩
    | toOpen | toTilt => exact absurd h (Option.some_ne_none _)
  | target x =>
    by_cases hx : x = 0
    · subst hx
      exact hClosed ⟨.inr rfl, .inl (hClose h)⟩
    · rw [goalDir_target _ hx] at h
      split_ifs at h
      refine hTarget ⟨x, rfl, hx, ?_⟩
      cases d
      · exact .inl ⟨rfl, by omega⟩
      · exact .inr ⟨rfl, by omega⟩

theorem unsame_of_unowned (h : u.owner = none) : u.sameGrant g = false := by
  simp only [Channel.sameGrant, h]

end

/-- Settles O42. -/
theorem movesReplaceTheMotion : Obligations.MovesReplaceTheMotion := by
  unfold Obligations.MovesReplaceTheMotion
  refine ⟨?turns, ?inFlight, ?queued, ?braking, ?unowned, ?repeats⟩
  case turns =>
    intro s slot b rest c mode k g m o d u hMoves _ hMotion hOwner hOver hState hDir hTurns
    obtain ⟨hSlot, hMode, -, -⟩ := hMoves.wishes
    have hSame : u.sameGrant g = false := hOver.differs hOwner
    have hOther : ¬(g.dir = none ∨ g.dir = some m.dir) := by simp [hDir, hTurns]
    have hGrant := (Channel.grant_inFlight (now := s.clock) (level := s.roughness)
      (normal := decide (s.band = .normal)) hSame hMotion hState).trans (if_neg hOther)
    have hNew := Channel.setFollowOn_eq s.clock g (g.dir.getD m.dir) false (u.enterBraking s.clock ⟨.none, false⟩)
    obtain ⟨t, hExec, hNormal, hCh, hStatus, hAnswered, hOthers, hRest⟩ := exec_move_granted hMoves
      (.inr ⟨o, hOwner, hOver.arbitrates⟩) hGrant (fun _ => by rw [hNew]; simp)
      (fun _ => Channel.stripTrips_of_mstate (by rw [hNew]; simp))
    have hSeen : (u.enterBraking s.clock ⟨.none, false⟩).owner = u.owner ∧
        (u.enterBraking s.clock ⟨.none, false⟩).latches = u.latches ∧
        (u.enterBraking s.clock ⟨.none, false⟩).datum = u.datum ∧
        (u.enterBraking s.clock ⟨.none, false⟩).tune = u.tune := by simp
    obtain ⟨hwOwner, hwLatches, hwDatum, hwTune⟩ := hSeen
    have hDue := hStatus (Channel.setFollowOn_statusDue ..)
    rw [hNew] at hCh
    have hAsked : answered s t g.slot 1 (if g.dir = none then .atTarget
        else if u.clamps mode k (signedAt b 4) then .clamped else .accepted) [byteAt b 1] := by
      rw [hSlot, ← grantReply_new hSame]
      exact hAnswered
    refine ⟨t, hExec, hNormal, ?_, ?_, ?_, ?_, ?_, ?_, ?_, ?_, ?_, ?_, ?_, ?_, ?_, ?_, hAsked, hDue, hOthers, hRest⟩
    case refine_4 => rw [hCh, hSlot, hMode, hDir]; rfl
    case refine_5 =>
      rw [hCh]
      dsimp only
      rw [Channel.enterBraking_motion, hMotion, hSlot, hMode, hDir]
      rfl
    case refine_8 =>
      refine grantLeaves_of_supersede hOwner hwOwner hwLatches hwDatum hwTune ?_ ?_ ?_
      · rw [hCh]
      · rw [hCh]
      · rw [hCh, ← hwTune]; rfl
    all_goals rw [hCh]; simp [State.ms]
  case inFlight =>
    intro s slot b rest c mode k g m o u datum cause hMoves _ hStrip hMotion hOwner hOver hState hDir
    obtain ⟨hSlot, hMode, hNotSeek, hForms⟩ := hMoves.wishes
    have hSame : u.sameGrant g = false := hOver.differs hOwner
    have hGrant := (Channel.grant_inFlight (now := s.clock) (level := s.roughness)
      (normal := decide (s.band = .normal)) hSame hMotion hState).trans (if_pos hDir)
    have hNew := Channel.replaceMotion_eq s.clock g m u
    have hDatum : (u.supersede s.clock g.slot).datum = datum := Channel.supersede_datum hOwner
    have hMDir : g.dir.getD m.dir = m.dir := by obtain h | h := hDir <;> rw [h] <;> rfl
    have hEnd : (u.replaceMotion s.clock g m).motionEnd = cause := by
      rw [hNew, hDatum]
      refine (Channel.motionEnd_eq rfl).trans ((if_neg hNotSeek).trans ?_)
      rw [hMDir]
      rfl
    have hAsked {t : State} (h : answered s t slot 1 (grantReply g (u.clamps mode k (signedAt b 4)) u) [byteAt b 1]) :
        grantAnswered s t c mode k b g := by
      rw [grantAnswered, hSlot, ← grantReply_new hSame]
      exact h
    cases hCause : cause with
    | none =>
      have hKept : u.replaceInFlight s.clock g m = u.replaceMotion s.clock g m := by
        simp only [Channel.replaceInFlight, hEnd, hCause]
      have hSomeDir : g.dir = some m.dir := hDir.resolve_left fun h => endCause_of_still (hForms ▸ h) datum m.dir hCause
      have hReferenced : (u.replaceMotion s.clock g m).datum = .referenced ↔ u.datum = .referenced := by
        rw [hNew]
        change (u.supersede s.clock g.slot).datum = _ ↔ _
        rw [hDatum]
        unfold datum
        split
        · next h => simp [h.2]
        · rfl
      have hTrips : (u.replaceMotion s.clock g m).stripTrips = u.stripTrips :=
        Channel.stripTrips_congr (by rw [hNew]) (by rw [hNew]) (by rw [hNew]) (by rw [hNew]) (by rw [hNew]) hReferenced
      obtain ⟨t, hExec, hNormal, hCh, -, hAnswered, hOthers, hRest⟩ := exec_move_granted hMoves
        (.inr ⟨o, hOwner, hOver.arbitrates⟩) (hGrant.trans hKept)
        (fun h => by rw [hNew]; exact fun hq => absurd (h.symm.trans hq) nofun) (fun _ => hTrips.trans hStrip)
      have hUnmarked := Channel.unmarked (hMoves.1.due c)
      rw [hNew, hSlot, hMode, hSomeDir] at hCh
      refine ⟨t, hExec, hNormal, ?_, hAsked hAnswered, hOthers, hRest⟩
      rw [if_pos rfl]
      refine ⟨by rw [hCh]; rfl, by rw [hCh]; rfl, by rw [hCh]; rfl, ?_, ?_⟩
      · exact grantLeaves_of_supersede hOwner rfl rfl rfl rfl (by rw [hCh, hSlot]) (by rw [hCh, hSlot])
          (by rw [hCh, hMode]; rfl)
      · rw [hCh]
        exact hUnmarked
    | some x =>
      have hEnds : u.replaceInFlight s.clock g m = (u.replaceMotion s.clock g m).endMotion s.clock x := by
        simp only [Channel.replaceInFlight, hEnd, hCause]
      obtain ⟨t, hExec, hNormal, hCh, hStatus, hAnswered, hOthers, hRest⟩ := exec_move_granted hMoves
        (.inr ⟨o, hOwner, hOver.arbitrates⟩) (hGrant.trans hEnds) (fun _ => by simp)
        (fun _ => Channel.stripTrips_of_mstate (by simp))
      have hFlight : (u.replaceMotion s.clock g m).mstate ≠ .braking := by
        rw [hNew]
        obtain h | h | h := hState
        · exact fun hb => absurd (h.symm.trans hb) nofun
        · exact fun hb => absurd (h.symm.trans hb) nofun
        · exact fun hb => absurd ((Channel.pausedMaster_mstate h).symm.trans hb) nofun
      have hOwned : (u.replaceMotion s.clock g m).owner ≠ none := by rw [hNew]; exact nofun
      have hMoving : (u.replaceMotion s.clock g m).motion ≠ none := by rw [hNew]; exact nofun
      refine ⟨t, hExec, hNormal, ?_, hAsked hAnswered, hOthers, hRest⟩
      rw [if_neg (Option.some_ne_none x)]
      refine ⟨?_, ?_, ?_, ?_, ?_, ?_, ?_, ?_, ?_, ?_, hStatus (Channel.endMotion_statusDue hFlight _ _)⟩
      case refine_5 => rw [hCh]; exact (Channel.endMotion_holdTimer ..).trans (if_neg hOwned)
      case refine_6 => rw [hCh]; exact Channel.endMotion_braking hMoving _ _
      case refine_7 => rw [hCh]; exact (Channel.endMotion_brakeTimer ..).trans (by rw [hNew]; rfl)
      case refine_8 =>
        rw [hCh]
        exact (Channel.endMotion_datum_of_met (hEnd.trans hCause) _ _).trans (by rw [hNew]; exact hDatum)
      case refine_9 => rw [hCh]; exact (Channel.endMotion_position ..).trans (by rw [hNew])
      case refine_10 => rw [hCh]; exact (Channel.endMotion_zones ..).trans (by rw [hNew])
      all_goals rw [hCh]; simp
  case queued =>
    intro s slot b rest c mode k g m o u hMoves hMotion hOwner hOver hState
    obtain ⟨hSlot, hMode, -, -⟩ := hMoves.wishes
    have hSame : u.sameGrant g = false := hOver.differs hOwner
    have hNew := Channel.replaceMotion_eq s.clock g m u
    obtain ⟨t, hExec, hNormal, hCh, hStatus, hAnswered, hOthers, hRest⟩ := exec_move_granted hMoves
      (.inr ⟨o, hOwner, hOver.arbitrates⟩) (Channel.grant_queued hSame hMotion hState)
      (fun h => absurd (h.symm.trans hState) nofun)
      (fun _ => Channel.stripTrips_of_mstate (by
        rw [hNew]
        exact ⟨fun h => absurd (h.symm.trans hState) nofun, fun h => absurd (h.symm.trans hState) nofun⟩))
    have hUnmarked := Channel.unmarked (hMoves.1.due c)
    have hAsked : grantAnswered s t c mode k b g := by
      rw [grantAnswered, hSlot, ← grantReply_new hSame]
      exact hAnswered
    rw [hNew] at hCh
    refine ⟨t, hExec, hNormal, ?_, ?_, ?_, ?_, ?_, fun h => hStatus ?_, hAsked, hOthers, hRest⟩
    · rw [hCh, hOwner, hSlot, hMode]; rfl
    · rw [hCh, hSlot, hMode]
    · rw [hCh]; rfl
    · exact grantLeaves_of_supersede hOwner rfl rfl rfl rfl (by rw [hCh]) (by rw [hCh]) (by rw [hCh]; rfl)
    · rw [hCh]; exact hUnmarked
    · exact Channel.replaceMotion_statusDue hOwner (hSlot ▸ h)
  case braking =>
    intro s slot b rest c mode k g m o slot' mode' goal' d' ended u d hMoves hMotion hOwner hOver hState hBrake
    obtain ⟨hSlot, hMode, -, -⟩ := hMoves.wishes
    have hSame : u.sameGrant g = false := hOver.differs hOwner
    have hNew := Channel.setFollowOn_eq s.clock g d ended u
    obtain ⟨t, hExec, hNormal, hCh, hStatus, hAnswered, hOthers, hRest⟩ := exec_move_granted hMoves
      (.inr ⟨o, hOwner, hOver.arbitrates⟩) (Channel.grant_following hSame hMotion hState hBrake)
      (fun h => absurd (h.symm.trans hState) nofun)
      (fun _ => Channel.stripTrips_of_mstate (by
        rw [hNew]
        exact ⟨fun h => absurd (h.symm.trans hState) nofun, fun h => absurd (h.symm.trans hState) nofun⟩))
    have hUnmarked := Channel.unmarked (hMoves.1.due c)
    have hDue := hStatus (Channel.setFollowOn_statusDue ..)
    have hAsked : grantAnswered s t c mode k b g := by
      rw [grantAnswered, hSlot, ← grantReply_new hSame]
      exact hAnswered
    rw [hNew] at hCh
    refine ⟨t, hExec, hNormal, ?_, ?_, ?_, ?_, hDue, hAsked, hOthers, hRest⟩
    · rw [hCh, hSlot, hMode]
    · rw [hCh, hMotion, hSlot, hMode]; rfl
    · exact grantLeaves_of_supersede hOwner rfl rfl rfl rfl (by rw [hCh]) (by rw [hCh]) (by rw [hCh]; rfl)
    · rw [hCh]; exact hUnmarked
  case unowned =>
    intro s slot b rest c mode k g u hMoves hOwner
    obtain ⟨hSlot, hMode, -, -⟩ := hMoves.wishes
    have hSame : u.sameGrant g = false := unsame_of_unowned hOwner
    have hUnmarked := Channel.unmarked (hMoves.1.due c)
    have hAsked {t : State} (h : answered s t slot 1 (grantReply g (u.clamps mode k (signedAt b 4)) u) [byteAt b 1]) :
        grantAnswered s t c mode k b g := by
      rw [grantAnswered, hSlot, ← grantReply_new hSame]
      exact h
    refine ⟨fun m ended d hState hMotion hBrake hDir => ?_, fun hStill hDir => ?_⟩
    · have hNew := Channel.setFollowOn_eq s.clock g d ended u
      rw [Channel.supersede_unowned hOwner] at hNew
      obtain ⟨t, hExec, hNormal, hCh, hStatus, hAnswered, hOthers, hRest⟩ := exec_move_granted hMoves (.inl hOwner)
        (Channel.grant_braking hSame hMotion hState hBrake hDir) (fun h => absurd (h.symm.trans hState) nofun)
        (fun h => absurd (congrArg Channel.datum hNew) h)
      have hDue := hStatus (Channel.setFollowOn_statusDue ..)
      rw [hNew] at hCh
      refine ⟨t, hExec, hNormal, ?_, ?_, ?_, ?_, hDue, hAsked hAnswered, hOthers, hRest⟩
      · rw [hCh, hSlot, hMode]
      · rw [hCh, hMotion, hSlot, hMode]; rfl
      · rw [hCh, hMode]; rfl
      · rw [hCh]; exact hUnmarked
    · obtain ⟨t, hExec, hNormal, hCh, -, hAnswered, hOthers, hRest⟩ := exec_move_granted hMoves (.inl hOwner)
        (Channel.grant_still hSame hDir hStill) (fun h hq => absurd (h.symm.trans hq) nofun) (fun h => absurd rfl h)
      rw [grantReply_new hSame, if_pos hDir] at hAnswered
      refine ⟨t, hExec, hNormal, fun e => ?_, hAnswered, hRest⟩
      by_cases he : e = c
      · rw [he, hCh]; exact hUnmarked
      · exact hOthers e he
  case repeats =>
    intro s slot b rest c mode k g o u hMoves hOwner hOSlot hOMode hOGoal hNoRefresh
    obtain ⟨hSlot, hMode, -, -⟩ := hMoves.wishes
    have hSame : u.sameGrant g = true := by
      simp only [Channel.sameGrant, hOwner]
      exact decide_eq_true ⟨hOSlot.trans hSlot.symm, hOMode.trans hMode.symm, hOGoal⟩
    have hArb : isRefresh g o = false := by
      unfold isRefresh
      exact decide_eq_false fun h => hNoRefresh ⟨hMode ▸ h.2.1, h.2.2.2⟩
    have hTimer : (if g.mode = .hold then u.grantTimer s.clock .hold else u) = { u with
        holdTimer := if mode = .hold then some (s.ms + u.tune.holdTimeout) else u.holdTimer } := by
      rw [hMode]
      split <;> rfl
    have hUnmarked := Channel.unmarked (hMoves.1.due c)
    obtain ⟨t, hExec, hNormal, hCh, -, hAnswered, hOthers, hRest⟩ := exec_move_granted hMoves
      (.inr ⟨o, hOwner, hArb, .inl (hOSlot.trans hSlot.symm)⟩) ((Channel.grant_repeated hSame).trans hTimer)
      (fun h hq => absurd (h.symm.trans hq) nofun) (fun h => absurd rfl h)
    have hReply : grantReply g (u.clamps mode k (signedAt b 4)) u = .accepted := by simp [grantReply, hSame]
    rw [hReply] at hAnswered
    exact ⟨t, hExec, hNormal, by rw [hCh], by rw [hCh]; exact hUnmarked, hAnswered, hOthers, hRest⟩

end Sys2Proof.Machine
end

section
/-! PROOFS. Incidents: what a declared incident does to the channel, the list and the queue (R48, R94, R152 to R155,
R159), and the outcomes of reversals (R98, R154). -/

namespace Sys2Proof.Machine
/-! ### The drive takes an incident (R21, R48, R94) -/

/-- A SEEKING datum is lost (R21). -/
def Channel.loseSeek (c : Channel) : Channel := if c.datum = .seeking then c.setDatum .unreferenced else c

theorem Channel.loseSeek_eq (c : Channel) : c.loseSeek = { c with
    datum := if c.datum = .seeking then .unreferenced else c.datum
    trips := c.loseSeek.trips, statusDue := c.loseSeek.statusDue } := by
  unfold Channel.loseSeek
  split <;> rfl

/-- The channel of which the owner is released and the brake begins. -/
def Channel.struck (cause : IncidentCause) (c : Channel) : Channel := ({ c with stopCause := cause.stop }).loseSeek

theorem Channel.takeIncident_eq (now : Nat) (cause : IncidentCause) (ref : Nat) (c : Channel) :
    c.takeIncident now cause ref = (((c.struck cause).release now true).enterBraking now ⟨.reversal, false⟩).mapMotion
      fun m => { m with mode := .reversal, owner := none, goal := none, incidentRef := some ref, incidentFree := false } :=
  rfl

section
variable (c : Channel) (now : Nat) (cause : IncidentCause) (ref : Nat)

theorem Channel.struck_eq : c.struck cause = { c with
    stopCause := cause.stop, datum := if c.datum = .seeking then .unreferenced else c.datum
    trips := (c.struck cause).trips, statusDue := (c.struck cause).statusDue } :=
  Channel.loseSeek_eq _

@[simp] theorem Channel.struck_mstate : (c.struck cause).mstate = c.mstate := by rw [Channel.struck_eq]
@[simp] theorem Channel.struck_bridge : (c.struck cause).bridge = c.bridge := by rw [Channel.struck_eq]
@[simp] theorem Channel.struck_motion : (c.struck cause).motion = c.motion := by rw [Channel.struck_eq]
@[simp] theorem Channel.struck_owner : (c.struck cause).owner = c.owner := by rw [Channel.struck_eq]
@[simp] theorem Channel.struck_latches : (c.struck cause).latches = c.latches := by rw [Channel.struck_eq]
@[simp] theorem Channel.struck_tune : (c.struck cause).tune = c.tune := by rw [Channel.struck_eq]
@[simp] theorem Channel.struck_holdTimer : (c.struck cause).holdTimer = c.holdTimer := by rw [Channel.struck_eq]
@[simp] theorem Channel.struck_position : (c.struck cause).position = c.position := by rw [Channel.struck_eq]
@[simp] theorem Channel.struck_zones : (c.struck cause).zones = c.zones := by rw [Channel.struck_eq]
@[simp] theorem Channel.struck_strikes : (c.struck cause).strikes = c.strikes := by rw [Channel.struck_eq]
@[simp] theorem Channel.struck_strikeTimer : (c.struck cause).strikeTimer = c.strikeTimer := by rw [Channel.struck_eq]
@[simp] theorem Channel.struck_ring : (c.struck cause).ring = c.ring := by rw [Channel.struck_eq]
@[simp] theorem Channel.struck_lastF : (c.struck cause).lastF = c.lastF := by rw [Channel.struck_eq]
@[simp] theorem Channel.struck_lastT : (c.struck cause).lastT = c.lastT := by rw [Channel.struck_eq]
@[simp] theorem Channel.struck_accum : (c.struck cause).accum = c.accum := by rw [Channel.struck_eq]
@[simp] theorem Channel.struck_strip : (c.struck cause).strip = c.strip := by rw [Channel.struck_eq]
@[simp] theorem Channel.struck_stopCause : (c.struck cause).stopCause = cause.stop := by rw [Channel.struck_eq]
@[simp] theorem Channel.struck_datum :
    (c.struck cause).datum = if c.datum = .seeking then .unreferenced else c.datum := by rw [Channel.struck_eq]

@[simp] theorem Channel.takeIncident_mstate : (c.takeIncident now cause ref).mstate = .braking := by
  simp [Channel.takeIncident_eq, Channel.mapMotion]
@[simp] theorem Channel.takeIncident_bridge : (c.takeIncident now cause ref).bridge = .brake := by
  simp [Channel.takeIncident_eq, Channel.mapMotion]
@[simp] theorem Channel.takeIncident_duty : (c.takeIncident now cause ref).duty = 0 := by
  simp [Channel.takeIncident_eq, Channel.mapMotion]
@[simp] theorem Channel.takeIncident_ramp : (c.takeIncident now cause ref).ramp = none := by
  simp [Channel.takeIncident_eq, Channel.mapMotion]
@[simp] theorem Channel.takeIncident_runSince : (c.takeIncident now cause ref).runSince = none := by
  simp [Channel.takeIncident_eq, Channel.mapMotion]
@[simp] theorem Channel.takeIncident_owner : (c.takeIncident now cause ref).owner = none := by
  simp [Channel.takeIncident_eq, Channel.mapMotion]
@[simp] theorem Channel.takeIncident_brakeTimer :
    (c.takeIncident now cause ref).brakeTimer = some (now / Config.usPerMs + c.tune.brake) := by
  simp [Channel.takeIncident_eq, Channel.mapMotion]
@[simp] theorem Channel.takeIncident_stopCause : (c.takeIncident now cause ref).stopCause = cause.stop := by
  simp [Channel.takeIncident_eq, Channel.mapMotion]
@[simp] theorem Channel.takeIncident_datum :
    (c.takeIncident now cause ref).datum = if c.datum = .seeking then .unreferenced else c.datum := by
  simp [Channel.takeIncident_eq, Channel.mapMotion]
@[simp] theorem Channel.takeIncident_position : (c.takeIncident now cause ref).position = c.position := by
  simp [Channel.takeIncident_eq, Channel.mapMotion]
@[simp] theorem Channel.takeIncident_zones : (c.takeIncident now cause ref).zones = c.zones := by
  simp [Channel.takeIncident_eq, Channel.mapMotion]
@[simp] theorem Channel.takeIncident_strikes : (c.takeIncident now cause ref).strikes = c.strikes := by
  simp [Channel.takeIncident_eq, Channel.mapMotion]
@[simp] theorem Channel.takeIncident_strikeTimer : (c.takeIncident now cause ref).strikeTimer = c.strikeTimer := by
  simp [Channel.takeIncident_eq, Channel.mapMotion]
@[simp] theorem Channel.takeIncident_ring : (c.takeIncident now cause ref).ring = c.ring := by
  simp [Channel.takeIncident_eq, Channel.mapMotion]
@[simp] theorem Channel.takeIncident_lastF : (c.takeIncident now cause ref).lastF = c.lastF := by
  simp [Channel.takeIncident_eq, Channel.mapMotion]
@[simp] theorem Channel.takeIncident_lastT : (c.takeIncident now cause ref).lastT = c.lastT := by
  simp [Channel.takeIncident_eq, Channel.mapMotion]
@[simp] theorem Channel.takeIncident_accum : (c.takeIncident now cause ref).accum = c.accum := by
  simp [Channel.takeIncident_eq, Channel.mapMotion]
@[simp] theorem Channel.takeIncident_strip : (c.takeIncident now cause ref).strip = c.strip := by
  simp [Channel.takeIncident_eq, Channel.mapMotion]

end

section
variable {c : Channel} {m : Motion} {o : Owner} (now : Nat) (cause : IncidentCause) (ref : Nat)

theorem Channel.takeIncident_motion (hMotion : c.motion = some m) :
    (c.takeIncident now cause ref).motion = some { m with
      mode := .reversal, owner := none, goal := none, braking := some ⟨.reversal, false⟩, pausedFrom := none
      runTime := min c.tune.runLimit (((c.struck cause).release now true).runElapsed now), incidentRef := some ref
      incidentFree := false } := by
  simp only [Channel.takeIncident_eq, Channel.mapMotion, Channel.enterBraking_motion, Channel.release_motion,
    Channel.struck_motion, Channel.struck_owner, Channel.release_tune, Channel.struck_tune, hMotion]
  split <;> rfl

theorem Channel.takeIncident_holdTimer (hOwner : c.owner = some o) :
    (c.takeIncident now cause ref).holdTimer = none := by
  simp [Channel.takeIncident_eq, Channel.mapMotion, Channel.release_holdTimer, hOwner]

theorem Channel.takeIncident_latches (hOwner : c.owner = some o) :
    (c.takeIncident now cause ref).latches = (c.latch now o).latches := by
  have hRelease : ((c.struck cause).release now true).latches = ((c.struck cause).latch now o).latches := by
    simp only [Channel.release, Channel.struck_owner, hOwner]
    rfl
  have hLatch : ((c.struck cause).latch now o).latches = (c.latch now o).latches := by
    unfold Channel.latch
    split <;> simp
  simp [Channel.takeIncident_eq, Channel.mapMotion, hRelease, hLatch]

theorem Channel.takeIncident_stallTimer (hBridge : c.bridge ≠ .brake) :
    (c.takeIncident now cause ref).stallTimer = none := by
  simp only [Channel.takeIncident_eq, Channel.mapMotion]
  exact Channel.enterBraking_stallTimer (by simpa using hBridge) _ _

theorem Channel.takeIncident_trips (hRunning : c.mstate = .running) : (c.takeIncident now cause ref).trips = 0 := by
  simp [Channel.takeIncident_eq, Channel.mapMotion, Channel.enterBraking_trips, hRunning]

end

theorem Channel.latch_latches (c : Channel) (now : Nat) (o : Owner) : (c.latch now o).latches =
    match o.mode, o.goal with
    | .hold, some (.toEnd e) => c.latches.set o.slot (some ⟨e, now / 1000 + c.tune.holdTimeout⟩)
    | _, _ => c.latches := by
  obtain ⟨_, _, mode, goal, _⟩ := o
  cases mode <;> rcases goal with _ | (_ | _) <;> rfl

/-- A bridge that drives is not in BRAKE. -/
theorem Channel.drives_ne_brake {c : Channel} (h : c.drives = true) : c.bridge ≠ .brake := by
  intro hb
  rw [Channel.drives, hb] at h
  exact absurd h (by decide)

/-! ### The part with the incident declared (R47, R48, R152 to R155, R159) -/

/-- The channel whose strikes have risen for an incident, the window started. -/
def Channel.strike (now window : Nat) (c : Channel) : Channel :=
  ({ c with strikeTimer := startTimer now (window * 1000) }).setStrikes (min 3 (c.strikes + 1))

section
variable (c : Channel) (now window : Nat)
@[simp] theorem Channel.strike_mstate : (c.strike now window).mstate = c.mstate := rfl
@[simp] theorem Channel.strike_bridge : (c.strike now window).bridge = c.bridge := rfl
@[simp] theorem Channel.strike_motion : (c.strike now window).motion = c.motion := rfl
@[simp] theorem Channel.strike_owner : (c.strike now window).owner = c.owner := rfl
@[simp] theorem Channel.strike_latches : (c.strike now window).latches = c.latches := rfl
@[simp] theorem Channel.strike_tune : (c.strike now window).tune = c.tune := rfl
@[simp] theorem Channel.strike_datum : (c.strike now window).datum = c.datum := rfl
@[simp] theorem Channel.strike_position : (c.strike now window).position = c.position := rfl
@[simp] theorem Channel.strike_zones : (c.strike now window).zones = c.zones := rfl
@[simp] theorem Channel.strike_accum : (c.strike now window).accum = c.accum := rfl
@[simp] theorem Channel.strike_ring : (c.strike now window).ring = c.ring := rfl
@[simp] theorem Channel.strike_lastF : (c.strike now window).lastF = c.lastF := rfl
@[simp] theorem Channel.strike_lastT : (c.strike now window).lastT = c.lastT := rfl
@[simp] theorem Channel.strike_strip : (c.strike now window).strip = c.strip := rfl
@[simp] theorem Channel.strike_strikes : (c.strike now window).strikes = min 3 (c.strikes + 1) := rfl
@[simp] theorem Channel.strike_strikeTimer :
    (c.strike now window).strikeTimer = some (now / 1000 + window * 1000) := rfl
end

section
variable (c : Chan) (cause : IncidentCause) (force : Option (Nat × Nat)) (s : State)

theorem declareIncident_ch : (declareIncident c cause force s).ch c =
    ((s.ch c).strike s.clock s.globals.strikeWindow).takeIncident s.clock cause s.nextRef := by
  unfold declareIncident
  rw [State.ch_modCh_self, handFrame_ch, handFrame_eq]
  exact congrArg (Channel.takeIncident _ _ _) (State.ch_modCh_self s c (·.strike s.clock s.globals.strikeWindow))

theorem declareIncident_incidents : (declareIncident c cause force s).incidents =
    (if s.incidents.length < 8 then s.incidents else s.incidents.drop 1) ++ [incidentOf s c cause force] := by
  unfold declareIncident
  rw [State.modCh_incidents, handFrame_eq]
  rfl

theorem declareIncident_getLast : (declareIncident c cause force s).incidents.getLast? =
    some (incidentOf s c cause force) := by
  rw [declareIncident_incidents, List.getLast?_append]
  rfl

/-- What of the part an incident leaves. -/
theorem declareIncident_rest : declareIncident c cause force s = { s with
    channels := (declareIncident c cause force s).channels, incidents := (declareIncident c cause force s).incidents
    nextRef := (declareIncident c cause force s).nextRef, txQueue := (declareIncident c cause force s).txQueue
    readout := (declareIncident c cause force s).readout } := by
  unfold declareIncident
  dsimp only
  rw [handFrame_eq]
  rfl

theorem handFrame_txQueue {s t : State} (h : t.txQueue = s.txQueue) (f : Frame) :
    (handFrame f t).txQueue = (handFrame f s).txQueue := by
  unfold handFrame
  rw [h]
  split
  · rfl
  · cases txEvict f.tag.rank s.txQueue with
    | none => exact h
    | some x =>
      dsimp only
      split
      · rw [readoutDeparted_txQueue, readoutDeparted_txQueue]
      · rfl

theorem declareIncident_txQueue : (declareIncident c cause force s).txQueue =
    (handFrame (incidentFrame s.globals (incidentOf s c cause force)) s).txQueue := by
  unfold declareIncident
  rw [State.modCh_txQueue]
  exact handFrame_txQueue (by rfl) _

end

theorem FrameTag.eq_incident {t : FrameTag} (h : 3 ≤ t.rank) : t = .incident := by
  cases t with
  | incident => rfl
  | answer | incidentData | status _ | readout => simp [FrameTag.rank] at h

/-- Settles O14. -/
theorem incidentBrakesTowardReversal : Obligations.IncidentBrakesTowardReversal := by
  unfold Obligations.IncidentBrakesTowardReversal
  refine ⟨?declared, ?bytes⟩
  case declared =>
    intro s c cause force m o hState hDrives hMotion hOwner t r
    have hCh : t.ch c = ((s.ch c).strike s.clock s.globals.strikeWindow).takeIncident s.clock cause s.nextRef :=
      declareIncident_ch c cause force s
    have hRecord : incidentOf s c cause force = r := by
      simp only [incidentOf, hOwner, hMotion]
      rfl
    have hQueue : t.txQueue = (handFrame (incidentFrame s.globals r) s).txQueue :=
      hRecord ▸ declareIncident_txQueue c cause force s
    have hList : t.incidents = (if s.incidents.length < 8 then s.incidents else s.incidents.drop 1) ++ [r] :=
      hRecord ▸ declareIncident_incidents c cause force s
    have hOne : oneChannel c s t := declareIncident_oneChannel c cause force s
    have hRest := declareIncident_rest c cause force s
    change t = _ at hRest
    clear_value t r
    refine ⟨hList, ?_, ?_, ?_, ?_, ?_, ?_, ?_, ?_, ?_, fun hRunning => ?_, ?_, ?_, ?_, ?_, fun hRoom => ?_, ?_,
      hOne.others, by rw [hRest]⟩
    case refine_6 => rw [hCh]; exact Channel.takeIncident_stallTimer _ _ _ (Channel.drives_ne_brake hDrives)
    case refine_10 => rw [hCh]; exact Channel.takeIncident_trips _ _ _ hRunning
    case refine_12 =>
      rw [hCh]
      have hTaken := Channel.takeIncident_motion s.clock cause s.nextRef
        (((s.ch c).strike_motion s.clock s.globals.strikeWindow).trans hMotion)
      exact ⟨_, hTaken, rfl, rfl, rfl, rfl, rfl, rfl, rfl, rfl, rfl⟩
    case refine_13 =>
      rw [hCh]
      refine (Channel.takeIncident_latches _ _ _ ((Channel.strike_owner ..).trans hOwner)).trans ?_
      rw [Channel.latch_latches, Channel.strike_latches, Channel.strike_tune]
      rfl
    case refine_14 => rw [hCh]; exact Channel.takeIncident_holdTimer _ _ _ ((Channel.strike_owner ..).trans hOwner)
    case refine_15 =>
      obtain ⟨x, y, hSplit, hJoined, hx, hy⟩ := txInsert_split (incidentFrame s.globals r) s.txQueue
      refine ⟨x, y, hSplit, ?_, fun e he htag => ?_, fun e he => ?_⟩
      · rw [← hJoined, hQueue, handFrame_room hRoom]
      · exact absurd (hy e he) (by rw [htag]; exact Nat.lt_irrefl 3)
      · exact FrameTag.eq_incident (hx e he)
    case refine_11 => rw [hCh, Channel.takeIncident_datum]; rfl
    all_goals rw [hCh]; simp [State.ms, Config.usPerMs]
  case bytes =>
    intro g r f t hStrikes hZone hLow hHigh hf ht hForce w
    refine ⟨rfl, rfl, ?_⟩
    rw [incidentFrame_data g hStrikes hZone hLow hHigh hf ht hForce]
    cases r.cause <;> rfl

end Sys2Proof.Machine
end

section
/-! PROOFS. The filters of the sampled lines (R1, R43, R143) and the contact strip (R43 to R45). -/

namespace Sys2Proof.Machine
/-! ### One filter (R1) -/

section
variable (l : Bool) (t time : Nat)

theorem Filter.see_level (f : Filter) : f.see t f.level time = ⟨f.level, none⟩ := by
  rw [Filter.see, if_pos rfl]

theorem Filter.see_change : (⟨!l, none⟩ : Filter).see t l time = ⟨!l, some ⟨t, time⟩⟩ := by
  cases l <;> rfl

theorem Filter.settle_due : (⟨!l, some ⟨t, time⟩⟩ : Filter).settle (t + time) = ⟨l, none⟩ := by
  have hAccepts : (⟨!l, some ⟨t, time⟩⟩ : Filter).accepts (t + time) = true := decide_eq_true (Nat.le_refl _)
  rw [Filter.settle, hAccepts, Bool.not_not]
  rfl

/-- A new level that stays for the filter time is accepted. -/
theorem Filter.sampleRun_change {stable : Nat} (h : time ≤ stable) :
    (⟨!l, none⟩ : Filter).sampleRun t l time stable = (⟨l, none⟩, t + time, true) := by
  have hDue : (⟨!l, some ⟨t, time⟩⟩ : Filter).due = some (t + time) := rfl
  simp only [Filter.sampleRun, Filter.see_change, hDue, if_neg (show ¬t + stable < t + time by omega),
    Filter.settle_due]
  rw [Nat.max_eq_right (Nat.le_add_right t time)]

end

/-! ### The strip (R43 to R45) -/

section
variable {s : State} {c : Chan} {level : Bool} {stable : Nat}

/-- The channel whose strip has accepted a level at a moment of the clock. -/
def State.stripAt (s : State) (c : Chan) (level : Bool) (now : Nat) : State :=
  ({ s with clock := now }).modCh c fun ch => { ch with strip := ⟨level, none⟩, stripSampled := now }

theorem State.stripAt_ch (s : State) (c : Chan) (level : Bool) (now : Nat) :
    (s.stripAt c level now).ch c = { s.ch c with strip := ⟨level, none⟩, stripSampled := now } :=
  State.ch_modCh_self _ c _

theorem stripAt_oneChannel (s : State) (c : Chan) (level : Bool) (now : Nat) :
    oneChannel c { s with clock := now } (s.stripAt c level now) := modCh_oneChannel c _ _

theorem State.noneDue.stripAt (hs : s.noneDue) (c : Chan) (level : Bool) (now : Nat) :
    (s.stripAt c level now).noneDue :=
  (stripAt_oneChannel s c level now).noneDue (by exact hs)
    ((congrArg Channel.statusDue (s.stripAt_ch c level now)).trans (hs.due c))

theorem sampleStrip_accepted (hStrip : (s.ch c).strip = ⟨!level, none⟩) (hStable : 50 ≤ stable) :
    sampleStrip c level stable s =
      judgeStrip c (s.stripAt c level (max s.clock ((s.ch c).stripSampled + 1) + 50)) := by
  have hRun := Filter.sampleRun_change level (max s.clock ((s.ch c).stripSampled + 1)) 50 hStable
  rw [← hStrip] at hRun
  unfold sampleStrip
  dsimp only
  rw [show Config.stripFilter = 50 from rfl, hRun]
  rfl

/-- What of the part the end of a step with an incident leaves. -/
theorem flush_declared_rest (c : Chan) (cause : IncidentCause) (force : Option (Nat × Nat)) (s : State) :
    flush (declareIncident c cause force s) = { s with
      channels := (flush (declareIncident c cause force s)).channels
      incidents := (declareIncident c cause force s).incidents
      nextRef := (declareIncident c cause force s).nextRef
      txQueue := (flush (declareIncident c cause force s)).txQueue
      readout := (declareIncident c cause force s).readout } := by
  have hRest := declareIncident_rest c cause force s
  have hFlush := flush_rest (declareIncident c cause force s)
  generalize flush (declareIncident c cause force s) = t at hFlush ⊢
  rw [hRest] at hFlush
  exact hFlush

theorem flush_incidents (s : State) : (flush s).incidents = s.incidents := by
  rw [flush_rest]

/-- The newest record after an incident is its own. -/
theorem flush_declared_last {o : Owner} {m : Motion} (hOwner : (s.ch c).owner = some o) (hMotion : (s.ch c).motion = some m)
    (cause : IncidentCause) (force : Option (Nat × Nat)) :
    ∃ r, (flush (declareIncident c cause force s)).incidents.getLast? = some r ∧ r.cause = cause ∧ r.chan = c ∧
      r.owner = o.slot ∧ r.mode = m.mode ∧ r.position = (s.ch c).position ∧ r.force = force := by
  refine ⟨_, (congrArg List.getLast? (flush_incidents _)).trans (declareIncident_getLast c cause force s), rfl, rfl, ?_,
    ?_, rfl, rfl⟩
  · simp [incidentOf, hOwner]
  · simp [incidentOf, hMotion]

theorem Channel.takeIncident_braking {u : Channel} {m : Motion} (hMotion : u.motion = some m) (now : Nat)
    (cause : IncidentCause) (ref : Nat) :
    (u.takeIncident now cause ref).motion.bind (·.braking) = some ⟨.reversal, false⟩ := by
  rw [Channel.takeIncident_motion now cause ref hMotion]
  rfl

theorem Channel.stripTrips_iff (u : Channel) : u.stripTrips = true ↔ u.tune.stripEnable = true ∧ u.strip.level = true ∧
    (u.mstate = .starting ∨ u.mstate = .running) ∧ u.drivesTowardZero = true ∧
    ¬(u.datum = .referenced ∧ u.position.natAbs ≤ u.tune.s) := by
  simp only [Channel.stripTrips, Bool.and_eq_true, Bool.not_eq_true', Bool.and_eq_false_iff, decide_eq_true_eq,
    decide_eq_false_iff_not]
  tauto

theorem judgeStrip_tripped (h : (s.ch c).stripTrips = true) : judgeStrip c s = declareIncident c .edge none s := by
  rw [judgeStrip, h]
  rfl

end

/-- Settles O15. -/
theorem stripIsJudged : Obligations.StripIsJudged := by
  unfold Obligations.StripIsJudged
  refine ⟨?quiet, ?trips⟩
  case quiet =>
    intro s c level stable hs hStrip hStable hQuiet
    have hCh := s.stripAt_ch c level (max s.clock ((s.ch c).stripSampled + 1) + 50)
    have hUntripped : ((s.stripAt c level (max s.clock ((s.ch c).stripSampled + 1) + 50)).ch c).stripTrips = false := by
      rw [hCh, ← Bool.not_eq_true, Channel.stripTrips_iff]
      rintro ⟨hEnabled, hLevel, hState, hToward, hOutside⟩
      obtain h | h | h | h | h := hQuiet
      · exact absurd (h.symm.trans hEnabled) nofun
      · exact absurd (h.symm.trans hLevel) nofun
      · exact hState.elim h.1 h.2
      · exact absurd (h.symm.trans hToward) nofun
      · exact hOutside h
    have hExec : exec (.stripAsserted c level stable) s = .next (flush (sampleStrip c level stable s)) := rfl
    rw [sampleStrip_accepted hStrip hStable, judgeStrip_untripped hUntripped,
      flush_of_noneDue (hs.stripAt c level _)] at hExec
    exact ⟨_, hExec, by rw [hCh], rfl, by rw [hCh], (stripAt_oneChannel s c level _).others, rfl⟩
  case trips =>
    intro s c stable m o hs hStrip hStable hEnabled hState hMotion hOwner hToward hOutside
    have hCh := s.stripAt_ch c true (max s.clock ((s.ch c).stripSampled + 1) + 50)
    have hTripped : ((s.stripAt c true (max s.clock ((s.ch c).stripSampled + 1) + 50)).ch c).stripTrips = true := by
      rw [hCh, Channel.stripTrips_iff]
      exact ⟨hEnabled, rfl, hState, hToward, hOutside⟩
    have hExec : exec (.stripAsserted c true stable) s = .next (flush (sampleStrip c true stable s)) := rfl
    rw [sampleStrip_accepted hStrip hStable, judgeStrip_tripped hTripped] at hExec
    have hOne := (stripAt_oneChannel s c true (max s.clock ((s.ch c).stripSampled + 1) + 50)).trans
      (declareIncident_oneChannel c .edge none _)
    have hDeclared := declareIncident_ch c .edge none (s.stripAt c true (max s.clock ((s.ch c).stripSampled + 1) + 50))
    rw [hCh] at hDeclared
    obtain ⟨r, hLast, hCause, hChan, hSlot, -, hPlace, hForce⟩ :=
      flush_declared_last (s := s.stripAt c true (max s.clock ((s.ch c).stripSampled + 1) + 50)) (c := c)
        ((congrArg Channel.owner hCh).trans hOwner) ((congrArg Channel.motion hCh).trans hMotion) .edge none
    have hPlace' := hPlace.trans (congrArg Channel.position hCh)
    refine ⟨_, hExec, ?_, ?_, ?_, ?_, ?_, ?_, ?_, ⟨r, hLast, hCause, hChan, hSlot, hPlace', hForce⟩, ?_, ?_,
      flush_othersKept hs hOne.others, by rw [flush_declared_rest]; rfl⟩
    case refine_7 =>
      rw [flush_ch, hDeclared]
      exact Channel.takeIncident_braking (by exact hMotion) _ _ _
    all_goals rw [flush_ch, hDeclared]; simp [IncidentCause.stop]

end Sys2Proof.Machine
end

section
/-! PROOFS. The timers that end a motion or a reversal (R40, R89, R97, R123), the ramp (R86, R87) and the end of a brake
without a follow-on (R92, R107). -/

namespace Sys2Proof.Machine
/-! ### The outcome of one reversal (R98, R154) -/

section
variable {s : State} {c : Chan} {o : ReversalOutcome} {m : Motion}

theorem reportOutcome_incidents (c : Chan) (o : ReversalOutcome) (s : State) : (reportOutcome c o s).incidents =
    s.incidents.map fun r => if (s.ch c).motion.bind (·.incidentRef) = some r.ref ∧ r.outcome = none
      then { r with outcome := some (o, (s.ch c).position) } else r := by
  unfold reportOutcome
  cases (s.ch c).motion.bind (·.incidentRef) with
  | none => simp
  | some n =>
    refine List.map_congr_left fun r _ => ?_
    simp only [Option.some.injEq, eq_comm]

theorem find_only {p : Chan → Bool} (h : ∀ x, p x = true → x = c) :
    Chan.all.find? p = if p c = true then some c else none := by
  cases hFind : Chan.all.find? p with
  | none =>
    rw [if_neg]
    exact Bool.not_eq_true _ ▸ List.find?_eq_none.1 hFind c (Chan.mem_all c)
  | some y =>
    have hy := List.find?_some hFind
    rw [← h y hy, if_pos hy]

/-- The outcome of one reversal is all that is written. -/
theorem reportOutcome_written (c : Chan) (o : ReversalOutcome) (s : State) : (reportOutcome c o s).incidents =
    outcomesWritten (fun x => if x = c then some o else none) s := by
  rw [reportOutcome_incidents, outcomesWritten]
  refine List.map_congr_left fun r _ => ?_
  have hFind : Chan.all.find? (fun x => (if x = c then some o else none).isSome &&
      decide ((s.ch x).motion.bind (·.incidentRef) = some r.ref)) =
        if (s.ch c).motion.bind (·.incidentRef) = some r.ref then some c else none := by
    rw [find_only (c := c) fun x hx => ?_]
    · simp
    · by_contra hne
      simp [hne] at hx
  rw [hFind]
  split <;> split_ifs <;> simp_all

end

/-! ### A timer of one channel that expires -/

section
variable {s t : State} {c : Chan} {d : Nat} {x : Channel} {l : List Incident} {m : Motion}

/-- The part after the expiry of a timer that makes `x` of one channel and `l` of the incident list. -/
theorem expired_reported (hs : s.noneDue) (ht : t = flush { (s.waitUntil d).setCh c x with incidents := l }) :
    t.clock = max s.clock (d * 1000) ∧ t.ch c = { x with statusDue := false } ∧
    (x.statusDue = true → statusHanded c s t) ∧ othersKept c s t ∧ t.incidents = l ∧
    { t with clock := s.clock, channels := s.channels, txQueue := s.txQueue, incidents := s.incidents } = s := by
  have hCh : ({ (s.waitUntil d).setCh c x with incidents := l } : State).ch c = x := State.ch_setCh_self _ c x
  refine ⟨by rw [ht, flush_rest]; rfl, by rw [ht, flush_ch, hCh], fun hDue => ?_, ?_, by rw [ht, flush_rest], by rw [ht, flush_rest]; rfl⟩
  · exact ht ▸ flush_statusHanded (by rw [hCh]; exact hDue) (Nat.le_add_right _ 2)
  · exact ht ▸ flush_othersKept hs (setCh_oneChannel c x (s.waitUntil d)).others

/-- The part after the expiry of a timer that makes `x` of one channel. -/
theorem expired (hs : s.noneDue) (ht : t = flush ((s.waitUntil d).setCh c x)) :
    t.clock = max s.clock (d * 1000) ∧ t.ch c = { x with statusDue := false } ∧
    (x.statusDue = true → statusHanded c s t) ∧ othersKept c s t ∧ t.incidents = s.incidents ∧
    { t with clock := s.clock, channels := s.channels, txQueue := s.txQueue } = s := by
  obtain ⟨hClock, hCh, hStatus, hOthers, hList, hRest⟩ := expired_reported (l := s.incidents) hs (by exact ht)
  exact ⟨hClock, hCh, hStatus, hOthers, hList, by rw [ht, flush_rest]; rfl⟩

theorem ms_of_clock (h : t.clock = max s.clock (d * 1000)) : t.ms = (s.waitUntil d).ms := by
  rw [State.ms, h]
  rfl

/-- The end of a reversal. -/
theorem endReversal_eq (c : Chan) (cause : Option StopCause) (o : ReversalOutcome) (s : State) :
    endReversal c cause o s = { s.setCh c
        (({ s.ch c with stopCause := cause.getD (s.ch c).stopCause }).enterBraking s.clock ⟨.none, true⟩) with
      incidents := (reportOutcome c o s).incidents } := by
  unfold endReversal
  rw [reportOutcome_eq]
  rfl

theorem setCh_setCh (s : State) (c : Chan) (x y : Channel) : (s.setCh c x).setCh c y = s.setCh c y := by
  have hSet : (s.channels.set c x).set c y = s.channels.set c y := by
    refine PerChan.ext_get fun d => ?_
    by_cases hd : d = c
    · rw [hd, PerChan.get_set_self, PerChan.get_set_self]
    · rw [PerChan.get_set_ne _ _ hd, PerChan.get_set_ne _ _ hd, PerChan.get_set_ne _ _ hd]
  exact congrArg (fun z => { s with channels := z }) hSet

/-! ### The end of a motion through BRAKING (R90) -/

theorem stopRequest_driven (h : (s.ch c).mstate = .starting ∨ (s.ch c).mstate = .running) (cause : StopCause) :
    stopRequest c cause s = s.setCh c ((s.ch c).endMotion s.clock cause) := by
  obtain h | h := h <;> simp only [stopRequest, h] <;> rfl

/-- A motion state in which the bridge drives is not BRAKING. -/
theorem MotionState.driving_ne_braking {m : MotionState} (h : m = .starting ∨ m = .running) : m ≠ .braking := by
  obtain rfl | rfl := h <;> exact nofun

/-- What a coherent channel that counts run-time is (O6). -/
theorem Channel.coherent.counting {u : Channel} (h : u.coherent) (hRun : u.runSince.isSome = true) :
    u.mstate = .starting ∨ u.mstate = .running ∨ u.mstate = .reversing := by
  obtain ⟨-, -, -, -, -, -, -, -, -, -, hSince, -⟩ := h
  rw [hSince] at hRun
  cases hState : u.mstate <;> rw [hState] at hRun <;> simp [MotionState.driving] at hRun ⊢

theorem Channel.coherent.unowned {u : Channel} (h : u.coherent) (hState : u.mstate = .reversing) : u.owner = none := by
  obtain ⟨-, -, hOwner, -⟩ := h
  simpa only [Channel.ownerFollows, hState] using hOwner

end

/-- Settles O25. -/
theorem runTimeLimitEnds : Obligations.RunTimeLimitEnds := by
  unfold Obligations.RunTimeLimitEnds
  intro s c t0 m hs hCoherent hSince hMotion
  have hExec : exec (.runTimeLimitExpiry c) s = .next (flush (runLimitReached c
      (s.waitUntil (t0 + ((s.ch c).tune.runLimit - m.runTime))))) := by
    change execRunTimeLimitExpiry c s = _
    simp only [execRunTimeLimitExpiry, hSince, hMotion]
    rfl
  obtain hDriven | hReversing : ((s.ch c).mstate = .starting ∨ (s.ch c).mstate = .running) ∨ (s.ch c).mstate = .reversing :=
    or_assoc.2 (hCoherent.counting (by rw [hSince]; rfl))
  · have hEnds : runLimitReached c (s.waitUntil (t0 + ((s.ch c).tune.runLimit - m.runTime))) =
        (s.waitUntil (t0 + ((s.ch c).tune.runLimit - m.runTime))).setCh c
          ((s.ch c).endMotion (s.waitUntil (t0 + ((s.ch c).tune.runLimit - m.runTime))).clock .runtime) := by
      obtain h | h := hDriven <;> simp only [runLimitReached, State.ch_waitUntil, h] <;> rfl
    rw [hEnds] at hExec
    obtain ⟨hClock, hCh, -, hOthers, hList, hRest⟩ := expired hs rfl
    have hNotReversing : (s.ch c).mstate ≠ .reversing := by obtain h | h := hDriven <;> rw [h] <;> exact nofun
    refine ⟨_, hExec, hClock, ?_, ?_, ?_, ?_, ?_, ?_, ?_, ?_, hOthers, by rw [flush_rest]; rfl⟩
    case refine_6 => rw [hCh]; exact Channel.endMotion_braking (by rw [hMotion]; exact nofun) _ _
    case refine_7 => rw [hCh, ms_of_clock hClock]; exact Channel.endMotion_brakeTimer ..
    case refine_8 => rw [if_neg hNotReversing]; exact hList
    all_goals rw [hCh]; simp
  · have hEnds : runLimitReached c (s.waitUntil (t0 + ((s.ch c).tune.runLimit - m.runTime))) =
        endReversal c (some .runtime) .cut (s.waitUntil (t0 + ((s.ch c).tune.runLimit - m.runTime))) := by
      simp only [runLimitReached, State.ch_waitUntil, hReversing]
    rw [hEnds, endReversal_eq] at hExec
    obtain ⟨hClock, hCh, -, hOthers, hList, hRest⟩ := expired_reported hs rfl
    refine ⟨_, hExec, hClock, ?_, ?_, ?_, ?_, ?_, ?_, ?_, ?_, hOthers, hRest⟩
    case refine_4 => rw [hCh]; exact (Channel.enterBraking_owner ..).trans (hCoherent.unowned hReversing)
    case refine_6 => rw [hCh]; simp [Channel.enterBraking_motion, hMotion]
    case refine_7 => rw [hCh, ms_of_clock hClock]; exact Channel.enterBraking_brakeTimer ..
    case refine_8 =>
      rw [if_pos hReversing, hList, reportOutcome_incidents]
      simp only [State.ch_waitUntil, hMotion, Option.bind_some, eq_comm, State.waitUntil_incidents]
    all_goals rw [hCh]; simp

/-- Settles O26. -/
theorem holdTimerStops : Obligations.HoldTimerStops := by
  unfold Obligations.HoldTimerStops
  intro s c d m o hs hTimer hMotion hOwner hMode hDrives hState
  have hExec : exec (.holdTimerExpiry c) s = .next (flush (stopRequest c .timeout
      ((s.waitUntil d).modCh c fun ch => { ch with holdTimer := none }))) := by
    change execHoldTimerExpiry c s = _
    simp only [execHoldTimerExpiry, hTimer]
  have hCh : ((s.waitUntil d).modCh c fun ch => { ch with holdTimer := none }).ch c =
      { s.ch c with holdTimer := none } := State.ch_modCh_self _ c _
  rw [stopRequest_driven (by rw [hCh]; exact hState), hCh, State.modCh, setCh_setCh] at hExec
  obtain ⟨hClock, hNew, -, hOthers, -, hRest⟩ := expired hs rfl
  refine ⟨_, hExec, hClock, ?_, ?_, ?_, ?_, ?_, ?_, ?_, ?_, hOthers, hRest⟩
  case refine_5 => rw [hNew]; exact (Channel.endMotion_holdTimer ..).trans (if_neg (by rw [hOwner]; exact nofun))
  case refine_6 => rw [hNew]; exact Channel.endMotion_timeout_latches ..
  case refine_7 => rw [hNew]; exact Channel.endMotion_braking (by rw [hMotion]; exact nofun) _ _
  all_goals rw [hNew]; simp

/-! ### Stalls (R20, R22, R40, R41) -/

theorem exec_stallTimerExpiry {s : State} {c : Chan} {d : Nat} (h : (s.ch c).stallTimer = some d) :
    exec (.stallTimerExpiry c) s = .next (flush (stall c (s.waitUntil d))) := by
  change execStallTimerExpiry c s = _
  simp only [execStallTimerExpiry, h]

section
variable (u : Channel) (p : Int)
@[simp] theorem Channel.datumFound_mstate : (u.datumFound p).mstate = u.mstate := rfl
@[simp] theorem Channel.datumFound_bridge : (u.datumFound p).bridge = u.bridge := rfl
@[simp] theorem Channel.datumFound_motion : (u.datumFound p).motion = u.motion := rfl
@[simp] theorem Channel.datumFound_tune : (u.datumFound p).tune = u.tune := rfl
@[simp] theorem Channel.datumFound_zones : (u.datumFound p).zones = u.zones := rfl
@[simp] theorem Channel.datumFound_strikes : (u.datumFound p).strikes = u.strikes := rfl
@[simp] theorem Channel.datumFound_position : (u.datumFound p).position = p := rfl
@[simp] theorem Channel.datumFound_datum : (u.datumFound p).datum = .referenced := rfl
@[simp] theorem Channel.datumFound_summary : (u.datumFound p).summary = ⟨false, false, false⟩ := rfl
@[simp] theorem Channel.datumFound_stepFaults : (u.datumFound p).stepFaults = 0 := rfl
@[simp] theorem Channel.datumFound_reverseFaults : (u.datumFound p).reverseFaults = 0 := rfl
@[simp] theorem Channel.datumFound_speedFaults : (u.datumFound p).speedFaults = 0 := rfl
end

/-- The channel whose stall has found the reference end of a seek, or else the closed end. -/
def Channel.endFound (now : Nat) (u : Channel) : Channel :=
  (u.datumFound (if u.datum = .seeking ∧ u.tune.refEnd = .negative then -(u.tune.ltUsed : Int) else 0)).endMotion now
    (if u.datum = .seeking then .referenced else .closed)

theorem stall_found {s : State} {c : Chan} (hState : (s.ch c).mstate = .starting ∨ (s.ch c).mstate = .running)
    (hEnd : (s.ch c).datum = .seeking ∨ ((s.ch c).drivesTowardZero = true ∧ (s.ch c).tune.closedEnd = .stall ∧
      ((s.ch c).datum = .unreferenced ∨ (s.ch c).position.natAbs ≤ (s.ch c).tune.s))) :
    stall c s = s.setCh c ((s.ch c).endFound s.clock) := by
  have hNotReversing : (s.ch c).mstate ≠ .reversing := by obtain h | h := hState <;> rw [h] <;> exact nofun
  by_cases hSeek : (s.ch c).datum = .seeking
  · have hClass : (s.ch c).stallClass = .referenceEnd := if_pos hSeek
    have hEndPlace : (s.ch c).tune.referencePosition = if (s.ch c).datum = .seeking ∧ (s.ch c).tune.refEnd = .negative
        then -((s.ch c).tune.ltUsed : Int) else 0 := by
      cases hRef : (s.ch c).tune.refEnd <;> simp [ChanTuning.referencePosition, hRef, hSeek]
    simp only [stall, hClass, Channel.endFound, ← hEndPlace, if_pos hSeek]
    rfl
  · have hClass : (s.ch c).stallClass = .closedEnd := by
      rw [Channel.stallClass, if_neg hSeek, if_neg hNotReversing, if_pos (hEnd.resolve_left hSeek)]
    simp only [stall, hClass, Channel.endFound, hSeek, false_and, if_false]
    rfl

/-- Settles O16. -/
theorem stallFindsTheEnd : Obligations.StallFindsTheEnd := by
  unfold Obligations.StallFindsTheEnd
  intro s c d m hs hTimer hMotion hDrives hState hEnd
  have hExec := exec_stallTimerExpiry hTimer
  rw [stall_found (by exact hState) (by exact hEnd)] at hExec
  have hBrake := Channel.drives_ne_brake hDrives
  have hMoving : (s.ch c).motion ≠ none := by rw [hMotion]; exact nofun
  have hDriven := MotionState.driving_ne_braking hState
  rw [Channel.endFound, State.ch_waitUntil] at hExec
  generalize (if (s.ch c).datum = .seeking ∧ (s.ch c).tune.refEnd = .negative
    then -((s.ch c).tune.ltUsed : Int) else 0) = p at hExec ⊢
  generalize (if (s.ch c).datum = .seeking then StopCause.referenced else .closed) = cause at hExec ⊢
  obtain ⟨hClock, hCh, hStatus, hOthers, -, hRest⟩ := expired (c := c) (d := d)
    (x := ((s.ch c).datumFound p).endMotion (s.waitUntil d).clock cause) hs rfl
  have hHanded := hStatus (Channel.endMotion_statusDue (by simpa using hDriven) _ _)
  have hDatum : (((s.ch c).datumFound p).endMotion (s.waitUntil d).clock cause).datum = .referenced := by
    rw [Channel.endMotion_datum]
    simp
  have hStall : (((s.ch c).datumFound p).endMotion (s.waitUntil d).clock cause).stallTimer = none :=
    Channel.endMotion_stallTimer (by simpa using hBrake) _ _
  have hFollow : (((s.ch c).datumFound p).endMotion (s.waitUntil d).clock cause).motion.bind (·.braking) =
      some ⟨.none, true⟩ := Channel.endMotion_braking (by simpa using hMoving) _ _
  refine ⟨_, hExec, hClock, ?_, ?_, ?_, ?_, ?_, ?_, ?_, ?_, ?_, ?_, ?_, ?_, ?_, ?_, ?_, ?_, hHanded, hOthers, hRest⟩
  case refine_3 => rw [hCh]; exact hDatum
  case refine_11 => rw [hCh]; exact hStall
  case refine_12 => rw [hCh, ms_of_clock hClock]; exact Channel.endMotion_brakeTimer ..
  case refine_14 => rw [hCh]; exact hFollow
  all_goals rw [hCh]; simp

theorem stall_plain {s : State} {c : Chan} (hState : (s.ch c).mstate = .starting ∨ (s.ch c).mstate = .running)
    (hSeek : (s.ch c).datum ≠ .seeking) (hAway : (s.ch c).drivesTowardZero = false) :
    stall c s = s.setCh c ((s.ch c).endMotion s.clock .stall) := by
  have hNotReversing : (s.ch c).mstate ≠ .reversing := by obtain h | h := hState <;> rw [h] <;> exact nofun
  have hClass : (s.ch c).stallClass = .plain := by
    rw [Channel.stallClass, if_neg hSeek, if_neg hNotReversing, hAway]
    simp
  simp only [stall, hClass]
  rfl

theorem stall_pinched {s : State} {c : Chan} (hState : (s.ch c).mstate = .running)
    (hDatum : (s.ch c).datum = .referenced) (hToward : (s.ch c).drivesTowardZero = true)
    (hOut : (s.ch c).tune.s < (s.ch c).position.natAbs) (hBand : (s.ch c).position.natAbs ≤ (s.ch c).tune.b) :
    stall c s = declareIncident c .stall none s := by
  have hOpen : ¬((s.ch c).position.natAbs ≤ (s.ch c).tune.s) := Nat.not_le.2 hOut
  have hClass : (s.ch c).stallClass = .incident := by
    rw [Channel.stallClass]
    simp [hState, hDatum, hToward, hOut, hBand, hOpen]
  simp only [stall, hClass]

theorem stall_reversing {s : State} {c : Chan} (hState : (s.ch c).mstate = .reversing)
    (hSeek : (s.ch c).datum ≠ .seeking) : stall c s = endReversal c (some .stall) .stalled s := by
  have hClass : (s.ch c).stallClass = .stalledReversal := by rw [Channel.stallClass, if_neg hSeek, if_pos hState]
  simp only [stall, hClass]

/-- Settles O17. -/
theorem stallIsClassified : Obligations.StallIsClassified := by
  unfold Obligations.StallIsClassified
  refine ⟨?plain, ?pinched, ?reversal⟩
  case plain =>
    intro s c d m hs hTimer hMotion hDrives hState hSeek hAway
    have hExec := exec_stallTimerExpiry hTimer
    rw [stall_plain (by exact hState) (by exact hSeek) (by exact hAway), State.ch_waitUntil] at hExec
    obtain ⟨-, hCh, -, hOthers, -, hRest⟩ := expired (c := c) (d := d)
      (x := (s.ch c).endMotion (s.waitUntil d).clock .stall) hs rfl
    have hFollow : ((s.ch c).endMotion (s.waitUntil d).clock .stall).motion.bind (·.braking) = some ⟨.none, true⟩ :=
      Channel.endMotion_braking (by rw [hMotion]; exact nofun) _ _
    have hDatum : ((s.ch c).endMotion (s.waitUntil d).clock .stall).datum = (s.ch c).datum :=
      (Channel.endMotion_datum ..).trans (if_neg fun h => hSeek h.1)
    refine ⟨_, hExec, ?_, ?_, ?_, ?_, ?_, ?_, ?_, ?_, hOthers, hRest⟩
    case refine_5 => rw [hCh]; exact hFollow
    case refine_7 => rw [hCh]; exact hDatum
    all_goals rw [hCh]; simp
  case pinched =>
    intro s c d m o hs hTimer hMotion hOwner hState hDatum hToward hOut hBand
    have hExec := exec_stallTimerExpiry hTimer
    rw [stall_pinched (by exact hState) (by exact hDatum) (by exact hToward) (by exact hOut) (by exact hBand)] at hExec
    have hDeclared := declareIncident_ch c .stall none (s.waitUntil d)
    have hOthers := flush_othersKept hs (declareIncident_oneChannel c .stall none (s.waitUntil d)).others
    obtain ⟨r, hLast, hCause, hChan, -, -, hPlace, hForce⟩ :=
      flush_declared_last (s := s.waitUntil d) (c := c) hOwner hMotion .stall none
    have hFollow := Channel.takeIncident_braking (u := (s.ch c).strike (s.waitUntil d).clock s.globals.strikeWindow)
      hMotion (s.waitUntil d).clock .stall s.nextRef
    refine ⟨_, hExec, ?_, ?_, ?_, ?_, ?_, ?_, ?_, ⟨r, hLast, hCause, hChan, hPlace, hForce⟩, ?_, ?_, hOthers,
      by rw [flush_declared_rest]; rfl⟩
    case refine_5 => rw [flush_ch, hDeclared]; exact hFollow
    case refine_7 => rw [flush_ch, hDeclared]; simp [hDatum]
    all_goals rw [flush_ch, hDeclared]; simp [IncidentCause.stop]
  case reversal =>
    intro s c d hs hTimer hCoherent hState hSeek
    have hExec := exec_stallTimerExpiry hTimer
    rw [stall_reversing (by exact hState) (by exact hSeek), endReversal_eq] at hExec
    obtain ⟨hMoving, hBridge, -⟩ := hCoherent
    obtain ⟨m, hMotion⟩ : ∃ m, (s.ch c).motion = some m := by
      refine Option.ne_none_iff_exists'.1 fun h => absurd (hMoving.1 h) ?_
      rw [hState]
      exact nofun
    have hBrake : (s.ch c).bridge ≠ .brake := by
      simp only [Channel.bridgeFollows, hState, hMotion] at hBridge
      cases hd : m.dir <;> simp [hd, Dir.bridge] at hBridge <;> rw [hBridge] <;> exact nofun
    obtain ⟨hClock, hCh, -, hOthers, hList, hRest⟩ := expired_reported hs rfl
    refine ⟨_, hExec, ?_, ?_, ?_, ?_, ?_, ?_, ?_, ?_, ?_, ?_, ?_, hOthers, hRest⟩
    case refine_4 => rw [hCh]; simp [Channel.enterBraking_motion, hMotion]
    case refine_5 => rw [hCh]; exact Channel.enterBraking_stallTimer (by exact hBrake) _ _
    case refine_6 => rw [hCh, ms_of_clock hClock]; exact Channel.enterBraking_brakeTimer ..
    case refine_7 => rw [hList, reportOutcome_written]; rfl
    all_goals rw [hCh]; simp

end Sys2Proof.Machine
end

section
/-! PROOFS. The ramp (R86, R87) and the end of a brake: in IDLE, in a reversal and in its MOTION follow-on (R92, R93, R95). -/

namespace Sys2Proof.Machine
/-! ### The ramp -/

/-- The entry to RUNNING of a STARTING channel, the duty formed there (R28, R86, R87). -/
theorem Channel.enterRunning_refreshDuty {u : Channel} (h : u.mstate = .starting) : u.enterRunning.refreshDuty = { u with
    mstate := .running, ring := [], settled := 0, trips := 0, ramp := none, statusDue := true
    duty := u.enterRunning.runningDuty } := by
  have hDue : u.enterRunning.statusDue = true := by simp [Channel.enterRunning, Channel.setMState, h]
  rw [Channel.refreshDuty, if_pos (by rfl), ← hDue]
  rfl

theorem Channel.runningDuty_eq (u : Channel) : u.runningDuty =
    if u.datum = .referenced ∧ u.drivesTowardZero = true ∧ 0 < u.tune.softZone ∧ u.position.natAbs ≤ u.tune.softZone
    then ((u.tune.stopDuty : Int) +
      (((u.runDuty : Int) - u.tune.stopDuty) * u.position.natAbs) / (u.tune.softZone : Int)).toNat
    else u.runDuty := rfl

/-- Settles O21. -/
theorem rampRaisesTheDuty : Obligations.RampRaisesTheDuty := by
  unfold Obligations.RampRaisesTheDuty
  refine ⟨?along, ?ends⟩
  case along =>
    intro s c r hState hRamp
    have hExec : exec (.rampDutyRecompute c) s = .next ((s.waitUntil (r.last + 1)).modCh c fun ch => { ch with
        ramp := some { r with last := (s.waitUntil (r.last + 1)).ms }
        duty := ch.rampDuty (min (s.ch c).tune.ramp ((s.waitUntil (r.last + 1)).ms - r.start)) }) := by
      change execRampDutyRecompute c s = _
      simp only [execRampDutyRecompute, hState, hRamp]
      rfl
    have hCh := State.ch_modCh_self (s.waitUntil (r.last + 1)) c fun ch => { ch with
        ramp := some { r with last := (s.waitUntil (r.last + 1)).ms }
        duty := ch.rampDuty (min (s.ch c).tune.ramp ((s.waitUntil (r.last + 1)).ms - r.start)) }
    exact ⟨_, hExec, rfl, by rw [hCh]; rfl, by rw [hCh]; rfl, by rw [hCh]; rfl, (modCh_oneChannel c _ _).others, rfl⟩
  case ends =>
    intro s c r hs hState hRamp
    have hExec : exec (.rampEnd c) s = .next (flush ((s.waitUntil (r.start + (s.ch c).tune.ramp)).setCh c
        ((s.ch c).enterRunning.refreshDuty))) := by
      change execRampEnd c s = _
      simp only [execRampEnd, hState, hRamp]
      rfl
    obtain ⟨hClock, hCh, -, hOthers, -, hRest⟩ := expired (c := c) (d := r.start + (s.ch c).tune.ramp)
      (x := (s.ch c).enterRunning.refreshDuty) hs rfl
    have hNew := Channel.enterRunning_refreshDuty hState
    rw [Channel.runningDuty_eq] at hNew
    have hUnmarked := Channel.unmarked (hs.due c)
    refine ⟨_, hExec, hClock, ?_, ?_, ?_, ?_, ?_, ?_, ?_, hOthers, hRest⟩
    case refine_6 => rw [hCh, hNew]; rfl
    case refine_7 => rw [hCh, hNew, ← hState]; exact hUnmarked
    all_goals rw [hCh, hNew]

/-! ### The expiry of a brake -/

section
variable {s : State} {c : Chan} {d : Nat} {m : Motion}

theorem exec_brakeExpiry (h : (s.ch c).brakeTimer = some d) :
    exec (.brakeExpiry c) s = .next (flush (endBrake c (s.waitUntil d))) := by
  change execBrakeExpiry c s = _
  simp only [execBrakeExpiry, h]

theorem endBrake_idle {b : Brake} (hMotion : (s.ch c).motion = some m) (hBrake : m.braking = some b)
    (hFollow : b.followOn = .none) : endBrake c s = s.setCh c ((s.ch c).enterIdle s.clock) := by
  obtain ⟨f, ended⟩ := b
  subst hFollow
  simp only [endBrake, hMotion, hBrake]
  rfl

theorem endBrake_reversal {ended : Bool} (hMotion : (s.ch c).motion = some m)
    (hBrake : m.braking = some ⟨.reversal, ended⟩) : endBrake c s = formReversal c s := by
  simp only [endBrake, hMotion, hBrake]

theorem endBrake_motion {slot : Slot} {mode : Mode} {goal : Goal} {dir : Dir} {ended : Bool}
    (hMotion : (s.ch c).motion = some m) (hBrake : m.braking = some ⟨.motion slot mode goal dir, ended⟩) :
    endBrake c s = followMotion c slot mode goal dir m ended s := by
  simp only [endBrake, hMotion, hBrake]

theorem cleanClose_iff {cause : StopCause} : cleanClose cause m = true ↔ cause = .closed ∧ m.incidentFree = true ∧
    m.supplyNormal = true ∧ m.holdFree = true ∧ m.maxRough ≤ 1 := by
  simp only [cleanClose, Bool.and_eq_true, decide_eq_true_eq, and_assoc]

theorem Channel.handEnd_zones_of {u : Channel} (h : u.motion = some m) : u.handEnd.zones =
    if u.stopCause = .closed ∧ m.incidentFree = true ∧ m.supplyNormal = true ∧ m.holdFree = true ∧ m.maxRough ≤ 1
    then List.zipWith (adaptZone u.tune.ladapt) u.zones u.accum else u.zones := by
  rw [Channel.handEnd_zones, h]
  simp only [cleanClose_iff]

theorem Channel.handEnd_strikes_of {u : Channel} (h : u.motion = some m) : u.handEnd.strikes =
    if u.stopCause = .closed ∧ m.incidentFree = true then 0 else u.strikes := by
  rw [Channel.handEnd_strikes, h]

end

/-- Settles O22. -/
theorem brakeEndsInIdle : Obligations.BrakeEndsInIdle := by
  unfold Obligations.BrakeEndsInIdle
  intro s c d m b hs hTimer hState hBridge hMotion hBrake hFollow hOwner
  have hExec := exec_brakeExpiry hTimer
  rw [endBrake_idle (by exact hMotion) hBrake hFollow, State.ch_waitUntil] at hExec
  obtain ⟨hClock, hCh, hStatus, hOthers, -, hRest⟩ := expired (c := c) (d := d)
    (x := (s.ch c).enterIdle (s.waitUntil d).clock) hs rfl
  have hNotIdle : (s.ch c).mstate ≠ .idle := by rw [hState]; exact nofun
  refine ⟨_, hExec, hClock, ?_, ?_, ?_, ?_, ?_, ?_, ?_, ?_, ?_, ?_, ?_,
    hStatus (Channel.enterIdle_statusDue hNotIdle _), hOthers, hRest⟩
  case refine_10 => rw [hCh]; exact (Channel.enterIdle_zones ..).trans (Channel.handEnd_zones_of hMotion)
  case refine_11 => rw [hCh]; exact (Channel.enterIdle_strikes ..).trans (Channel.handEnd_strikes_of hMotion)
  all_goals rw [hCh]; simp

/-! ### A reversal that begins to drive (R89, R95, R96) -/

/-- The channel that enters REVERSING, its bridge not yet driving (R89, R96). -/
def Channel.toReversing (u : Channel) : Channel :=
  ({ u.mapMotion (fun m => { m with braking := none, pausedFrom := none, runTime := 0 }) with
    brakeTimer := none }).setMState .reversing

/-- The target of a reversal is reached at a position (R96). -/
def Motion.reached (p : Int) (m : Motion) : Bool :=
  match m.goal with
  | some (.target t) => decide ((m.dir = .inc ∧ t ≤ p) ∨ (m.dir = .dec ∧ p ≤ t))
  | _ => true

/-- The channel of a reversal that drives (R96). -/
def Channel.driveReversal (now : Nat) (d : Dir) (u : Channel) : Channel :=
  ({ u.toReversing with runDuty := u.chosenDuty false, runSince := some (now / Config.usPerMs) }).setBridge now
    d.bridge (u.chosenDuty false)

/-- The entry to REVERSING ends at once where the target is reached, and drives otherwise (R96). -/
theorem enterReversing_eq {s : State} {c : Chan} {m : Motion} (hm : (s.ch c).motion = some m) :
    enterReversing c s = if m.reached (s.ch c).position then
      endReversal c none .completed (s.setCh c (s.ch c).toReversing)
    else s.setCh c ((s.ch c).driveReversal s.clock m.dir) := by
  have hCh : (s.modCh c Channel.toReversing).ch c = (s.ch c).toReversing := State.ch_modCh_self s c _
  have hRecord : ((s.modCh c Channel.toReversing).ch c).motion =
      some { m with braking := none, pausedFrom := none, runTime := 0 } := by
    rw [hCh]
    simp [Channel.toReversing, Channel.mapMotion, hm]
  have hPosition : ((s.modCh c Channel.toReversing).ch c).position = (s.ch c).position := by
    rw [hCh]
    rfl
  have hDrive : (s.modCh c Channel.toReversing).modCh c (fun ch => ({ ch with
      runDuty := ch.chosenDuty false, runSince := some (s.clock / Config.usPerMs) }).setBridge s.clock m.dir.bridge
        (ch.chosenDuty false)) = s.setCh c ((s.ch c).driveReversal s.clock m.dir) := by
    rw [State.modCh, hCh]
    exact setCh_setCh s c _ _
  unfold enterReversing
  change (match ((s.modCh c Channel.toReversing).ch c).motion with | none => _ | some m => _) = _
  rw [hRecord]
  change (if Motion.reached ((s.modCh c Channel.toReversing).ch c).position
    { m with braking := none, pausedFrom := none, runTime := 0 } = true then _ else _) = _
  rw [hPosition]
  by_cases h : m.reached (s.ch c).position = true
  · rw [if_pos h, if_pos (by exact h)]
    rfl
  · rw [if_neg h, if_neg (by exact h)]
    exact hDrive

section
variable {s : State} {c : Chan} {m : Motion}

/-- The reversal formed from a position is beyond it (R95). -/
def Channel.reversalBeyond (u : Channel) : Bool :=
  let d := reversalDir u.tune u.position
  let t := reversalTarget u.tune u.datum u.position
  decide ((d = .inc ∧ u.position < t) ∨ (d = .dec ∧ t < u.position))

/-- The channel with its reversal formed (R95). -/
def Channel.formed (m : Motion) (u : Channel) : Channel :=
  { u with motion := some { m with
      dir := reversalDir u.tune u.position, goal := some (.target (reversalTarget u.tune u.datum u.position)) } }

theorem formReversal_beyond (hMotion : (s.ch c).motion = some m) (hDr : (s.ch c).tune.dr ≠ 0)
    (hBeyond : (s.ch c).reversalBeyond = true) : formReversal c s =
      s.setCh c (if s.holdLine.level = true then ((s.ch c).formed m).pauseAfterBrake s.clock .reversal
        else ((s.ch c).formed m).driveReversal s.clock (reversalDir (s.ch c).tune (s.ch c).position)) := by
  have hFormed : (s.modCh c (·.mapMotion fun m => { m with
      dir := reversalDir (s.ch c).tune (s.ch c).position
      goal := some (.target (reversalTarget (s.ch c).tune (s.ch c).datum (s.ch c).position)) })) =
      s.setCh c ((s.ch c).formed m) := by
    simp only [State.modCh, Channel.mapMotion, hMotion, Option.map_some, Channel.formed]
  have hCh := State.ch_setCh_self s c ((s.ch c).formed m)
  have hNotReached : Motion.reached (s.ch c).position { m with
      dir := reversalDir (s.ch c).tune (s.ch c).position
      goal := some (.target (reversalTarget (s.ch c).tune (s.ch c).datum (s.ch c).position)) } = false := by
    refine decide_eq_false ?_
    rintro (⟨hd, ht⟩ | ⟨hd, ht⟩) <;> obtain ⟨hd', ht'⟩ | ⟨hd', ht'⟩ := of_decide_eq_true hBeyond
    · omega
    · exact absurd (hd.symm.trans hd') nofun
    · exact absurd (hd.symm.trans hd') nofun
    · omega
  unfold formReversal
  refine (if_neg hDr).trans ((if_pos hBeyond).trans ?_)
  rw [hFormed]
  dsimp only
  split
  · next hLine =>
    rw [if_pos (show s.holdLine.level = true from hLine), State.modCh, hCh, setCh_setCh]
    rfl
  · next hLine =>
    rw [if_neg (show ¬s.holdLine.level = true from hLine), enterReversing_eq (congrArg Channel.motion hCh), hCh]
    refine (if_neg (by exact ne_true_of_eq_false hNotReached)).trans ?_
    exact setCh_setCh s c _ _

theorem formReversal_ends (h : (s.ch c).tune.dr = 0 ∨ (s.ch c).reversalBeyond = false) : formReversal c s =
    { s.setCh c ((s.ch c).enterIdle s.clock) with
      incidents := (reportOutcome c (if (s.ch c).tune.dr = 0 then .none else .completed) s).incidents } := by
  have hIdle (o : ReversalOutcome) : (reportOutcome c o s).modCh c (·.enterIdle s.clock) =
      { s.setCh c ((s.ch c).enterIdle s.clock) with incidents := (reportOutcome c o s).incidents } := by
    rw [reportOutcome_eq]
    rfl
  unfold formReversal
  by_cases hDr : (s.ch c).tune.dr = 0
  · rw [if_pos hDr, if_pos hDr]
    exact hIdle .none
  · rw [if_neg hDr, if_neg hDr]
    exact (if_neg (ne_true_of_eq_false (h.resolve_left hDr))).trans (hIdle .completed)

end

section
variable (u : Channel) (now : Nat) (d : Dir)
@[simp] theorem Channel.driveReversal_mstate : (u.driveReversal now d).mstate = .reversing := by
  simp [Channel.driveReversal, Channel.toReversing]
@[simp] theorem Channel.driveReversal_bridge : (u.driveReversal now d).bridge = d.bridge := by
  simp [Channel.driveReversal]
@[simp] theorem Channel.driveReversal_duty :
    (u.driveReversal now d).duty = if u.datum = .referenced then u.tune.runDuty else u.tune.limpDuty := by
  simp only [Channel.driveReversal, Channel.setBridge_duty, Channel.chosenDuty]
  split <;> simp_all
@[simp] theorem Channel.driveReversal_runSince : (u.driveReversal now d).runSince = some (now / Config.usPerMs) := by
  simp [Channel.driveReversal]
@[simp] theorem Channel.driveReversal_brakeTimer : (u.driveReversal now d).brakeTimer = none := by
  simp [Channel.driveReversal, Channel.toReversing]
@[simp] theorem Channel.driveReversal_stopCause : (u.driveReversal now d).stopCause = u.stopCause := by
  simp [Channel.driveReversal, Channel.toReversing, Channel.mapMotion]
@[simp] theorem Channel.driveReversal_position : (u.driveReversal now d).position = u.position := by
  simp [Channel.driveReversal, Channel.toReversing, Channel.mapMotion]
@[simp] theorem Channel.driveReversal_motion : (u.driveReversal now d).motion =
    u.motion.map fun m => { m with braking := none, pausedFrom := none, runTime := 0 } := by
  simp [Channel.driveReversal, Channel.toReversing, Channel.mapMotion]

theorem Channel.driveReversal_stallTimer {u : Channel} (h : u.bridge.dir = none) :
    (u.driveReversal now d).stallTimer = some (now / Config.usPerMs + u.tune.tss) := by
  have hNew : d.bridge ≠ u.bridge := by
    rintro hb
    rw [← hb] at h
    cases d <;> exact absurd h nofun
  unfold Channel.driveReversal
  rw [Channel.setBridge_stallTimer (by exact hNew)]
  cases d <;> rfl

theorem Channel.driveReversal_phase {u : Channel} (h : u.bridge.dir = none) :
    (u.driveReversal now d).phase = some ⟨d, now, false⟩ := by
  have hNew : d.bridge ≠ u.bridge := by
    rintro hb
    rw [← hb] at h
    cases d <;> exact absurd h nofun
  unfold Channel.driveReversal
  rw [Channel.setBridge_phase (by exact hNew)]
  cases d <;> rfl
end

section
variable (u : Channel) (now : Nat) (x : PausedFrom)
@[simp] theorem Channel.pauseAfterBrake_mstate : (u.pauseAfterBrake now x).mstate = .paused := by
  simp [Channel.pauseAfterBrake]
@[simp] theorem Channel.pauseAfterBrake_bridge : (u.pauseAfterBrake now x).bridge = .off := by
  simp [Channel.pauseAfterBrake]
@[simp] theorem Channel.pauseAfterBrake_duty : (u.pauseAfterBrake now x).duty = 0 := by
  simp [Channel.pauseAfterBrake]
@[simp] theorem Channel.pauseAfterBrake_brakeTimer : (u.pauseAfterBrake now x).brakeTimer = none := by
  simp [Channel.pauseAfterBrake]
@[simp] theorem Channel.pauseAfterBrake_stopCause : (u.pauseAfterBrake now x).stopCause = u.stopCause := by
  simp [Channel.pauseAfterBrake, Channel.mapMotion]
@[simp] theorem Channel.pauseAfterBrake_position : (u.pauseAfterBrake now x).position = u.position := by
  simp [Channel.pauseAfterBrake, Channel.mapMotion]
@[simp] theorem Channel.pauseAfterBrake_motion : (u.pauseAfterBrake now x).motion =
    u.motion.map fun m => { m with braking := none, pausedFrom := some x } := by
  simp [Channel.pauseAfterBrake, Channel.mapMotion]
end

/-- The direction and target of a reversal, as one line each (R95). -/
theorem reversalDir_eq (u : Channel) : reversalDir u.tune u.position =
    if u.tune.axis = .twoSided ∧ u.position < 0 ∧ 0 < u.tune.lt then .dec else .inc := rfl

theorem reversalTarget_eq (u : Channel) : reversalTarget u.tune u.datum u.position =
    if u.tune.axis = .twoSided ∧ u.position < 0 ∧ 0 < u.tune.lt
    then (if u.datum = .referenced then max (u.position - u.tune.dr) (-(u.tune.lt : Int))
      else u.position - u.tune.dr)
    else (if u.datum = .referenced then min (u.position + u.tune.dr) u.tune.lo else u.position + u.tune.dr) := by
  by_cases h : u.tune.axis = .twoSided ∧ u.position < 0 ∧ 0 < u.tune.lt
  · have hUsed : (u.tune.ltUsed : Int) = u.tune.lt := by simp [ChanTuning.ltUsed, h.1]
    rw [reversalTarget, reversalDir_eq, if_pos h, if_pos h, hUsed]
  · rw [reversalTarget, reversalDir_eq, if_neg h, if_neg h]

theorem Channel.reversalBeyond_iff (u : Channel) : u.reversalBeyond = true ↔
    if u.tune.axis = .twoSided ∧ u.position < 0 ∧ 0 < u.tune.lt
    then reversalTarget u.tune u.datum u.position < u.position
    else u.position < reversalTarget u.tune u.datum u.position := by
  by_cases h : u.tune.axis = .twoSided ∧ u.position < 0 ∧ 0 < u.tune.lt
  · simp [Channel.reversalBeyond, reversalDir_eq, if_pos h]
  · simp [Channel.reversalBeyond, reversalDir_eq, if_neg h]

/-- Settles O23. -/
theorem brakeTurnsToReversing : Obligations.BrakeTurnsToReversing := by
  unfold Obligations.BrakeTurnsToReversing
  refine ⟨?forms, ?ends⟩
  case forms =>
    intro s c e m ended u p dec target d hs hTimer hState hBridge hMotion hBrake hDr hBeyond
    have hTarget : reversalTarget u.tune u.datum u.position = target := reversalTarget_eq u
    have hDir : reversalDir u.tune u.position = d := reversalDir_eq u
    have hIs : u.reversalBeyond = true := by
      rw [Channel.reversalBeyond_iff, hTarget]
      exact hBeyond
    have hFormed : (u.formed m).motion = some { m with dir := d, goal := some (.target target) } := by
      rw [Channel.formed, hDir, hTarget]
    have hExec := exec_brakeExpiry hTimer
    rw [endBrake_reversal (by exact hMotion) hBrake,
      formReversal_beyond (by exact hMotion) (by exact Nat.ne_of_gt hDr) (by exact hIs), State.ch_waitUntil] at hExec
    change exec (.brakeExpiry c) s = .next (flush ((s.waitUntil e).setCh c
      (if s.holdLine.level = true then (u.formed m).pauseAfterBrake (s.waitUntil e).clock .reversal
      else (u.formed m).driveReversal (s.waitUntil e).clock (reversalDir u.tune u.position)))) at hExec
    rw [hDir] at hExec
    by_cases hLine : s.holdLine.level = true
    · rw [if_pos hLine] at hExec
      obtain ⟨hClock, hCh, -, hOthers, -, hRest⟩ := expired (c := c) (d := e)
        (x := (u.formed m).pauseAfterBrake (s.waitUntil e).clock .reversal) hs rfl
      refine ⟨_, hExec, hClock, ?_, ?_, ?_, ?_, ?_, ?_, ?_, hOthers, hRest⟩
      case refine_7 => rw [if_pos hLine, hCh]; simp [hFormed]
      all_goals rw [hCh]; simp [hFormed] <;> rfl
    · rw [if_neg hLine] at hExec
      obtain ⟨hClock, hCh, -, hOthers, -, hRest⟩ := expired (c := c) (d := e)
        (x := (u.formed m).driveReversal (s.waitUntil e).clock d) hs rfl
      have hOff : (u.formed m).bridge.dir = none := congrArg Bridge.dir hBridge
      refine ⟨_, hExec, hClock, ?_, ?_, ?_, ?_, ?_, ?_, ?_, hOthers, hRest⟩
      case refine_7 =>
        rw [if_neg hLine, hCh, ms_of_clock hClock]
        exact ⟨by simp, by simp, (Channel.driveReversal_duty ..).trans rfl, Channel.driveReversal_stallTimer _ _ hOff,
          by simp [State.ms], by simp [hFormed]⟩
      all_goals rw [hCh]; simp [hFormed] <;> rfl
  case ends =>
    intro s c e m ended u p dec target hs hTimer hState hBridge hMotion hBrake hIncident hEnds
    have hTarget : reversalTarget u.tune u.datum u.position = target := reversalTarget_eq u
    have hNot : u.tune.dr = 0 ∨ u.reversalBeyond = false := by
      rw [← Bool.not_eq_true, Channel.reversalBeyond_iff, hTarget]
      exact hEnds
    have hExec := exec_brakeExpiry hTimer
    rw [endBrake_reversal (by exact hMotion) hBrake, formReversal_ends (by exact hNot), State.ch_waitUntil] at hExec
    obtain ⟨hClock, hCh, hStatus, hOthers, hList, hRest⟩ := expired_reported (c := c) (d := e)
      (x := u.enterIdle (s.waitUntil e).clock) hs rfl
    have hNotIdle : u.mstate ≠ .idle := by rw [hState]; exact nofun
    refine ⟨_, hExec, hClock, ?_, ?_, ?_, ?_, ?_, ?_, ?_, ?_, ?_, ?_, ?_,
      hStatus (Channel.enterIdle_statusDue hNotIdle _), hOthers, hRest⟩
    case refine_9 =>
      rw [hCh]
      exact (Channel.enterIdle_zones ..).trans ((Channel.handEnd_zones_of hMotion).trans (if_neg (by simp [hIncident])))
    case refine_10 =>
      rw [hCh]
      exact (Channel.enterIdle_strikes ..).trans
        ((Channel.handEnd_strikes_of hMotion).trans (if_neg (by simp [hIncident])))
    case refine_11 => rw [hList, reportOutcome_written]; rfl
    all_goals rw [hCh]; simp <;> rfl

end Sys2Proof.Machine
end

section
/-! PROOFS. A brake that passes to its MOTION follow-on (R84, R92, R93, R106, R112). -/

namespace Sys2Proof.Machine
section
variable {s t : State} {c : Chan} {e : Nat} {x : Channel} {q : List Chan}

/-- The part after the expiry of a timer that makes `x` of one channel and `q` of the start queue. -/
theorem expired_queued (hs : s.noneDue) (ht : t = flush { (s.waitUntil e).setCh c x with startQueue := q }) :
    t.clock = max s.clock (e * 1000) ∧ t.ch c = { x with statusDue := false } ∧
    (x.statusDue = true → statusHanded c s t) ∧ othersKept c s t ∧ t.startQueue = q ∧
    { t with clock := s.clock, channels := s.channels, txQueue := s.txQueue, startQueue := s.startQueue } = s := by
  have hCh : ({ (s.waitUntil e).setCh c x with startQueue := q } : State).ch c = x := State.ch_setCh_self _ c x
  refine ⟨by rw [ht, flush_rest]; rfl, by rw [ht, flush_ch, hCh], fun hDue => ?_, ?_, by rw [ht, flush_rest],
    by rw [ht, flush_rest]; rfl⟩
  · exact ht ▸ flush_statusHanded (by rw [hCh]; exact hDue) (Nat.le_add_right _ 2)
  · exact ht ▸ flush_othersKept hs (setCh_oneChannel c x (s.waitUntil e)).others

end

section
variable (c : Channel) (now : Nat) (x : StopCause)

/-- A motion that is dropped with another cause than CLOSED hands nothing on (R64, R160). -/
theorem Channel.dropMotion_zones (h : x ≠ .closed) : (c.dropMotion now x).zones = c.zones := by
  rw [Channel.dropMotion, Channel.enterIdle_zones, Channel.handEnd_zones, Channel.stopWith_stopCause,
    Channel.stopWith_zones]
  split
  · rw [if_neg]
    rw [cleanClose_iff]
    exact fun hc => h hc.1
  · rfl

theorem Channel.dropMotion_strikes (h : x ≠ .closed) : (c.dropMotion now x).strikes = c.strikes := by
  rw [Channel.dropMotion, Channel.enterIdle_strikes, Channel.handEnd_strikes, Channel.stopWith_stopCause,
    Channel.stopWith_strikes]
  split
  · exact if_neg fun hc => h hc.1
  · rfl

@[simp] theorem Channel.dropMotion_brakeTimer : (c.dropMotion now x).brakeTimer = none := by
  simp [Channel.dropMotion]

theorem Channel.dropMotion_datum : (c.dropMotion now x).datum =
    if c.datum = .seeking ∧ c.motion.map (·.mode) = some .reference ∧ x ≠ StopCause.referenced
    then .unreferenced else c.datum := by
  rw [Channel.dropMotion, Channel.enterIdle_datum, Channel.stopWith_datum]

/-- The owner of a motion that is dropped receives its latch (R124). -/
theorem Channel.dropMotion_latches {c : Channel} {o : Owner} (hOwner : c.owner = some o) (hx : x ≠ .timeout) :
    (c.dropMotion now x).latches = (c.latch now o).latches := by
  have hStop : (c.stopWith now x).latches = (c.latch now o).latches := by
    have hSeek : (({ c with stopCause := x }).endSeek x).owner = some o := by simp [hOwner]
    simp only [Channel.stopWith, Channel.release, hSeek, decide_eq_true hx, if_true]
    change ((({ c with stopCause := x }).endSeek x).latch now o).latches = _
    unfold Channel.latch
    split <;> simp
  have hIdle : ((c.stopWith now x).enterIdle now).latches = (c.stopWith now x).latches := by
    simp [Channel.enterIdle, Channel.release]
  exact hIdle.trans hStop

end

section
variable (u : Channel) (now : Nat) (x : PausedFrom)
@[simp] theorem Channel.pauseAfterBrake_datum : (u.pauseAfterBrake now x).datum = u.datum := by
  simp [Channel.pauseAfterBrake, Channel.mapMotion]
@[simp] theorem Channel.pauseAfterBrake_zones : (u.pauseAfterBrake now x).zones = u.zones := by
  simp [Channel.pauseAfterBrake, Channel.mapMotion]
@[simp] theorem Channel.pauseAfterBrake_strikes : (u.pauseAfterBrake now x).strikes = u.strikes := by
  simp [Channel.pauseAfterBrake, Channel.mapMotion]
@[simp] theorem Channel.pauseAfterBrake_latches : (u.pauseAfterBrake now x).latches = u.latches := by
  simp [Channel.pauseAfterBrake, Channel.mapMotion]
@[simp] theorem Channel.pauseAfterBrake_owner : (u.pauseAfterBrake now x).owner = u.owner := by
  simp [Channel.pauseAfterBrake, Channel.mapMotion]
@[simp] theorem Channel.pauseAfterBrake_accum : (u.pauseAfterBrake now x).accum = u.accum := by
  simp [Channel.pauseAfterBrake, Channel.mapMotion]
@[simp] theorem Channel.pauseAfterBrake_holdTimer : (u.pauseAfterBrake now x).holdTimer = u.holdTimer := by
  simp [Channel.pauseAfterBrake, Channel.mapMotion]

theorem Channel.pauseAfterBrake_statusDue {u : Channel} (h : u.mstate ≠ .paused) :
    (u.pauseAfterBrake now x).statusDue = true := by
  simp [Channel.pauseAfterBrake, Channel.mapMotion, Channel.setMState_statusDue, h]
end

/-! ### The channel under its follow-on -/

/-- The channel whose brake has passed to its MOTION follow-on, the owner confirmed. -/
def Channel.followed (now level : Nat) (normal : Bool) (slot : Slot) (mode : Mode) (goal : Goal) (d : Dir) (m : Motion)
    (ended : Bool) (u : Channel) : Channel :=
  (u.followRecord now level normal slot mode goal d m ended).confirmOwner
    (if ended then none else goalDir u.tune.axis goal u.position)

/-- The channel that waits in the start queue after its brake. -/
def Channel.queueAfterBrake (now : Nat) (u : Channel) : Channel :=
  (({ u with brakeTimer := none }).setMState .queued).setBridge now .off 0

section
variable (u : Channel) (now : Nat)
@[simp] theorem Channel.queueAfterBrake_mstate : (u.queueAfterBrake now).mstate = .queued := by
  simp [Channel.queueAfterBrake]
@[simp] theorem Channel.queueAfterBrake_bridge : (u.queueAfterBrake now).bridge = .off := by
  simp [Channel.queueAfterBrake]
@[simp] theorem Channel.queueAfterBrake_duty : (u.queueAfterBrake now).duty = 0 := by
  simp [Channel.queueAfterBrake]
@[simp] theorem Channel.queueAfterBrake_brakeTimer : (u.queueAfterBrake now).brakeTimer = none := by
  simp [Channel.queueAfterBrake]
@[simp] theorem Channel.queueAfterBrake_position : (u.queueAfterBrake now).position = u.position := by
  simp [Channel.queueAfterBrake]
@[simp] theorem Channel.queueAfterBrake_motion : (u.queueAfterBrake now).motion = u.motion := by
  simp [Channel.queueAfterBrake]
@[simp] theorem Channel.queueAfterBrake_stopCause : (u.queueAfterBrake now).stopCause = u.stopCause := by
  simp [Channel.queueAfterBrake]
@[simp] theorem Channel.queueAfterBrake_datum : (u.queueAfterBrake now).datum = u.datum := by
  simp [Channel.queueAfterBrake]
@[simp] theorem Channel.queueAfterBrake_zones : (u.queueAfterBrake now).zones = u.zones := by
  simp [Channel.queueAfterBrake]
@[simp] theorem Channel.queueAfterBrake_strikes : (u.queueAfterBrake now).strikes = u.strikes := by
  simp [Channel.queueAfterBrake]
@[simp] theorem Channel.queueAfterBrake_latches : (u.queueAfterBrake now).latches = u.latches := by
  simp [Channel.queueAfterBrake]
@[simp] theorem Channel.queueAfterBrake_owner : (u.queueAfterBrake now).owner = u.owner := by
  simp [Channel.queueAfterBrake]
@[simp] theorem Channel.queueAfterBrake_accum : (u.queueAfterBrake now).accum = u.accum := by
  simp [Channel.queueAfterBrake]
@[simp] theorem Channel.queueAfterBrake_holdTimer : (u.queueAfterBrake now).holdTimer = u.holdTimer := by
  simp [Channel.queueAfterBrake]

theorem Channel.queueAfterBrake_statusDue {u : Channel} (h : u.mstate ≠ .queued) :
    (u.queueAfterBrake now).statusDue = true := by
  simp [Channel.queueAfterBrake, Channel.setMState_statusDue, h]
end

theorem followMotion_eq {s : State} {c : Chan} {slot : Slot} {mode : Mode} {goal : Goal} {d : Dir} {m : Motion}
    {ended : Bool} {y : Channel} (hy : (s.ch c).followed s.clock s.roughness (decide (s.band = .normal)) slot mode goal d m
      ended = y) :
    followMotion c slot mode goal d m ended s =
      { s.setCh c (if s.holdLine.level = true then
            (if s.limitExpired = true then y.dropMotion s.clock .hold else y.pauseAfterBrake s.clock .motion)
          else y.queueAfterBrake s.clock) with
        startQueue := if s.holdLine.level = true then s.startQueue else c :: s.startQueue } := by
  have hCh := State.ch_modCh_self s c
    fun ch => ch.followed s.clock s.roughness (decide (s.band = .normal)) slot mode goal d m ended
  have hSet (f : Channel → Channel) : (s.modCh c fun ch =>
      ch.followed s.clock s.roughness (decide (s.band = .normal)) slot mode goal d m ended).modCh c f =
        s.setCh c (f y) := by
    rw [State.modCh, hCh, hy]
    exact setCh_setCh s c _ _
  unfold followMotion
  by_cases hLine : s.holdLine.level = true
  · rw [if_pos hLine, if_pos hLine]
    refine (if_pos hLine).trans ?_
    by_cases hLimit : s.limitExpired = true
    · rw [if_pos hLimit]
      exact (if_pos hLimit).trans (hSet _)
    · rw [if_neg hLimit]
      exact (if_neg hLimit).trans (hSet _)
  · rw [if_neg hLine, if_neg hLine]
    refine (if_neg hLine).trans ?_
    exact congrArg (fun w : State => { w with startQueue := c :: s.startQueue }) (hSet _)

section
variable {u : Channel} {now level : Nat} {normal : Bool} {slot : Slot} {mode : Mode} {goal : Goal} {d : Dir} {m : Motion}
  {o : Owner}

/-- A pre-emption: the record goes on under the follow-on. -/
theorem Channel.followed_preempted (hOwner : u.owner = some o) :
    u.followed now level normal slot mode goal d m false = { u with
      motion := some { m with
        owner := some slot, mode := mode, goal := some goal, braking := none
        dir := (goalDir u.tune.axis goal u.position).getD m.dir }
      owner := some { o with pending := false, dir := (goalDir u.tune.axis goal u.position).getD o.dir }
      statusDue := (u.followed now level normal slot mode goal d m false).statusDue } := by
  have hConfirm (v : Channel) (hv : v.owner = some o) (x : Option Dir) : v.confirmOwner x = { v with
      owner := some { o with pending := false, dir := x.getD o.dir }, statusDue := (v.confirmOwner x).statusDue } := by
    simp only [Channel.confirmOwner, hv]
    rfl
  exact hConfirm (u.followRecord now level normal slot mode goal d m false) hOwner (goalDir u.tune.axis goal u.position)

/-- A motion that ended: its end is handed on and a new record is made (R93, R107). -/
theorem Channel.followed_ended (hOwner : u.owner = some o) :
    u.followed now level normal slot mode goal d m true = { u.handEnd with
      motion := some (newMotion slot mode (some goal) d level normal)
      accum := List.replicate u.handEnd.tune.z ⟨0, 0⟩
      holdTimer := if mode = .hold then some (now / 1000 + u.handEnd.tune.holdTimeout) else none
      owner := some { o with pending := false }
      statusDue := (u.followed now level normal slot mode goal d m true).statusDue } := by
  have hConfirm (v : Channel) (hv : v.owner = some o) : v.confirmOwner none = { v with
      owner := some { o with pending := false }, statusDue := (v.confirmOwner none).statusDue } := by
    simp only [Channel.confirmOwner, hv]
    rfl
  exact hConfirm _ ((Channel.handEnd_owner u).trans hOwner)

end

/-- Settles O24. -/
theorem brakeTurnsToTheFollowOn : Obligations.BrakeTurnsToTheFollowOn := by
  unfold Obligations.BrakeTurnsToTheFollowOn
  intro s c e m slot mode goal d ended o u adapted strikes pausedFrom hs hTimer hState hBridge hMotion hBrake hMode hOwner
  obtain ⟨y, hy⟩ : ∃ y, u.followed (s.waitUntil e).clock s.roughness (decide (s.band = .normal)) slot mode goal d m ended =
    y := ⟨_, rfl⟩
  have hExec := exec_brakeExpiry hTimer
  rw [endBrake_motion (by exact hMotion) hBrake, followMotion_eq (by exact hy), State.waitUntil_holdLine,
    State.waitUntil_limitExpired, State.waitUntil_startQueue] at hExec
  have hKept : y.mstate = .braking ∧ y.position = u.position ∧ y.datum = u.datum ∧ y.latches = u.latches ∧
      y.stopCause = u.stopCause ∧ y.tune = u.tune ∧ y.zones = (if ended = true then adapted else u.zones) ∧
      y.strikes = (if ended = true then strikes else u.strikes) := by
    cases ended with
    | false =>
      rw [Channel.followed_preempted hOwner] at hy
      subst hy
      exact ⟨hState, rfl, rfl, rfl, rfl, rfl, rfl, rfl⟩
    | true =>
      rw [Channel.followed_ended hOwner] at hy
      subst hy
      exact ⟨(Channel.handEnd_mstate u).trans hState, Channel.handEnd_position u, Channel.handEnd_datum u,
        Channel.handEnd_latches u, Channel.handEnd_stopCause u, Channel.handEnd_tune u, Channel.handEnd_zones_of hMotion,
        Channel.handEnd_strikes_of hMotion⟩
  have hFollows : if ended = true then
        y.motion = some (newMotion slot mode (some goal) d s.roughness (decide (s.band = .normal))) ∧
        y.owner = some { o with pending := false } ∧ y.accum = List.replicate u.tune.z ⟨0, 0⟩ ∧
        y.holdTimer = (if mode = .hold then some ((s.waitUntil e).ms + u.tune.holdTimeout) else none)
      else
        y.motion = some { m with
          owner := some slot, mode := mode, goal := some goal, braking := none
          dir := (goalDir u.tune.axis goal u.position).getD m.dir } ∧
        y.owner = some { o with pending := false, dir := (goalDir u.tune.axis goal u.position).getD o.dir } ∧
        y.accum = u.accum ∧ y.holdTimer = u.holdTimer := by
    cases ended with
    | false =>
      rw [Channel.followed_preempted hOwner] at hy
      subst hy
      exact ⟨rfl, rfl, rfl, rfl⟩
    | true =>
      rw [Channel.followed_ended hOwner] at hy
      subst hy
      exact ⟨rfl, rfl, by rw [Channel.handEnd_tune], by rw [Channel.handEnd_tune]; rfl⟩
  obtain ⟨hyState, hyPlace, hyDatum, hyLatches, hyCause, hyTune, hyZones, hyStrikes⟩ := hKept
  obtain ⟨m', o', hyMotion, hyOwner, hm', hoMode, hoGoal, hoSlot⟩ : ∃ m' o', y.motion = some m' ∧ y.owner = some o' ∧
      m'.mode = mode ∧ o'.mode = o.mode ∧ o'.goal = o.goal ∧ o'.slot = o.slot := by
    cases ended with
    | false => exact ⟨_, _, hFollows.1, hFollows.2.1, rfl, rfl, rfl, rfl⟩
    | true => exact ⟨_, _, hFollows.1, hFollows.2.1, rfl, rfl, rfl, rfl⟩
  have hNotSeek : y.motion.map (·.mode) ≠ some .reference := by
    rw [hyMotion, Option.map_some, hm']
    obtain rfl | rfl := hMode <;> exact nofun
  by_cases hLine : s.holdLine.level = true
  · by_cases hLimit : s.limitExpired = true
    · rw [if_pos hLine, if_pos hLimit, if_pos hLine] at hExec
      obtain ⟨hClock, hCh, hStatus, hOthers, hQueue, hRest⟩ := expired_queued (c := c) (e := e)
        (x := y.dropMotion (s.waitUntil e).clock .hold) (q := s.startQueue) hs rfl
      have hDue := hStatus (Channel.dropMotion_statusDue (by rw [hyState]; exact nofun) _ _)
      have hMs := ms_of_clock hClock
      have hHandled : (y.dropMotion (s.waitUntil e).clock .hold).latches = match o.mode, o.goal with
          | .hold, some (.toEnd x) =>
            u.latches.set o.slot (some ⟨x, (s.waitUntil e).ms + u.tune.holdTimeout⟩)
          | _, _ => u.latches := by
        rw [Channel.dropMotion_latches _ .hold hyOwner nofun, Channel.latch_latches, hoMode, hoGoal, hoSlot, hyLatches, hyTune]
        rfl
      refine ⟨_, hExec, hClock, ?_, ?_, ?_, ?_, ?_, ?_, ?_, ?_, hDue, hOthers, hRest⟩
      case refine_5 =>
        rw [hCh]
        exact (Channel.dropMotion_datum ..).trans ((if_neg fun h => hNotSeek h.2.1).trans hyDatum)
      case refine_6 => rw [hCh]; exact (Channel.dropMotion_zones _ _ .hold nofun).trans hyZones
      case refine_7 => rw [hCh]; exact (Channel.dropMotion_strikes _ _ .hold nofun).trans hyStrikes
      case refine_8 =>
        rw [if_pos ⟨hLine, hLimit⟩, hCh, hMs]
        refine ⟨by simp, by simp, by simp, by simp, ?_, ?_, hQueue⟩
        · exact (Channel.dropMotion_holdTimer ..).trans (if_neg (by rw [hyOwner]; exact nofun))
        · exact hHandled
      all_goals rw [hCh]; simp [hyPlace]
    · rw [if_pos hLine, if_neg hLimit, if_pos hLine] at hExec
      obtain ⟨hClock, hCh, hStatus, hOthers, hQueue, hRest⟩ := expired_queued (c := c) (e := e)
        (x := y.pauseAfterBrake (s.waitUntil e).clock .motion) (q := s.startQueue) hs rfl
      have hDue := hStatus (Channel.pauseAfterBrake_statusDue _ _ (by rw [hyState]; exact nofun))
      have hMs := ms_of_clock hClock
      refine ⟨_, hExec, hClock, ?_, ?_, ?_, ?_, ?_, ?_, ?_, ?_, hDue, hOthers, hRest⟩
      case refine_6 => rw [hCh]; exact (Channel.pauseAfterBrake_zones ..).trans hyZones
      case refine_7 => rw [hCh]; exact (Channel.pauseAfterBrake_strikes ..).trans hyStrikes
      case refine_8 =>
        rw [if_neg fun h => hLimit h.2, if_pos hLine, hCh, hMs]
        refine ⟨by simp [hyCause], by simp [hyLatches], ⟨by simp, hQueue⟩, ?_⟩
        cases ended with
        | false =>
          obtain ⟨hMotion', hOwner', hAccum', hTimer'⟩ := hFollows
          exact ⟨by simp [hMotion', pausedFrom, hLine], by simp [hOwner'], by simp [hAccum'], by simp [hTimer']⟩
        | true =>
          obtain ⟨hMotion', hOwner', hAccum', hTimer'⟩ := hFollows
          exact ⟨by simp [hMotion', pausedFrom, hLine, newMotion], by simp [hOwner'], by simp [hAccum'],
            by simp [hTimer']⟩
      all_goals rw [hCh]; simp [hyPlace, hyDatum]
  · rw [if_neg hLine, if_neg hLine] at hExec
    obtain ⟨hClock, hCh, hStatus, hOthers, hQueue, hRest⟩ := expired_queued (c := c) (e := e)
      (x := y.queueAfterBrake (s.waitUntil e).clock) (q := c :: s.startQueue) hs rfl
    have hDue := hStatus (Channel.queueAfterBrake_statusDue _ (by rw [hyState]; exact nofun))
    have hMs := ms_of_clock hClock
    refine ⟨_, hExec, hClock, ?_, ?_, ?_, ?_, ?_, ?_, ?_, ?_, hDue, hOthers, hRest⟩
    case refine_6 => rw [hCh]; exact (Channel.queueAfterBrake_zones ..).trans hyZones
    case refine_7 => rw [hCh]; exact (Channel.queueAfterBrake_strikes ..).trans hyStrikes
    case refine_8 =>
      rw [if_neg fun h => hLine h.1, if_neg hLine, hCh, hMs]
      refine ⟨by simp [hyCause], by simp [hyLatches], ⟨by simp, hQueue⟩, ?_⟩
      cases ended with
      | false =>
        obtain ⟨hMotion', hOwner', hAccum', hTimer'⟩ := hFollows
        exact ⟨by simp [hMotion', pausedFrom, hLine], by simp [hOwner'], by simp [hAccum'], by simp [hTimer']⟩
      | true =>
        obtain ⟨hMotion', hOwner', hAccum', hTimer'⟩ := hFollows
        exact ⟨by simp [hMotion', pausedFrom, hLine, newMotion], by simp [hOwner'], by simp [hAccum'], by simp [hTimer']⟩
    all_goals rw [hCh]; simp [hyPlace, hyDatum]

end Sys2Proof.Machine
end

section
/-! PROOFS. The admission from the start queue (R44, R84, R85, R133, R134). -/

namespace Sys2Proof.Machine
/-! ### The duty formed anew -/

section
variable (c : Channel)
@[simp] theorem Channel.refreshDuty_bridge : c.refreshDuty.bridge = c.bridge := by unfold Channel.refreshDuty; split <;> rfl
@[simp] theorem Channel.refreshDuty_phase : c.refreshDuty.phase = c.phase := by unfold Channel.refreshDuty; split <;> rfl
@[simp] theorem Channel.refreshDuty_stallTimer : c.refreshDuty.stallTimer = c.stallTimer := by unfold Channel.refreshDuty; split <;> rfl
@[simp] theorem Channel.refreshDuty_runDuty : c.refreshDuty.runDuty = c.runDuty := by unfold Channel.refreshDuty; split <;> rfl
@[simp] theorem Channel.refreshDuty_runSince : c.refreshDuty.runSince = c.runSince := by unfold Channel.refreshDuty; split <;> rfl
@[simp] theorem Channel.refreshDuty_accum : c.refreshDuty.accum = c.accum := by unfold Channel.refreshDuty; split <;> rfl
@[simp] theorem Channel.refreshDuty_motion : c.refreshDuty.motion = c.motion := by unfold Channel.refreshDuty; split <;> rfl
@[simp] theorem Channel.refreshDuty_ramp : c.refreshDuty.ramp = c.ramp := by unfold Channel.refreshDuty; split <;> rfl
@[simp] theorem Channel.refreshDuty_ring : c.refreshDuty.ring = c.ring := by unfold Channel.refreshDuty; split <;> rfl
@[simp] theorem Channel.refreshDuty_settled : c.refreshDuty.settled = c.settled := by unfold Channel.refreshDuty; split <;> rfl
@[simp] theorem Channel.refreshDuty_trips : c.refreshDuty.trips = c.trips := by unfold Channel.refreshDuty; split <;> rfl
@[simp] theorem Channel.refreshDuty_switched1 : c.refreshDuty.switched1 = c.switched1 := by unfold Channel.refreshDuty; split <;> rfl
@[simp] theorem Channel.refreshDuty_switched2 : c.refreshDuty.switched2 = c.switched2 := by unfold Channel.refreshDuty; split <;> rfl
@[simp] theorem Channel.refreshDuty_stopCause : c.refreshDuty.stopCause = c.stopCause := by unfold Channel.refreshDuty; split <;> rfl
@[simp] theorem Channel.refreshDuty_owner : c.refreshDuty.owner = c.owner := by unfold Channel.refreshDuty; split <;> rfl
@[simp] theorem Channel.refreshDuty_holdTimer : c.refreshDuty.holdTimer = c.holdTimer := by unfold Channel.refreshDuty; split <;> rfl
@[simp] theorem Channel.refreshDuty_zones : c.refreshDuty.zones = c.zones := by unfold Channel.refreshDuty; split <;> rfl
@[simp] theorem Channel.refreshDuty_strikes : c.refreshDuty.strikes = c.strikes := by unfold Channel.refreshDuty; split <;> rfl
@[simp] theorem Channel.refreshDuty_tune : c.refreshDuty.tune = c.tune := by unfold Channel.refreshDuty; split <;> rfl
@[simp] theorem Channel.refreshDuty_strip : c.refreshDuty.strip = c.strip := by unfold Channel.refreshDuty; split <;> rfl
end

/-! ### The entry to STARTING (R19, R53, R62, R63, R83, R85) -/

/-- The record of a motion that starts. -/
def Motion.start (level : Nat) (normal : Bool) (m : Motion) : Motion :=
  { m with started := true, maxRough := max m.maxRough level, supplyNormal := m.supplyNormal && normal }

/-- The channel in STARTING, its bridge not yet driving. -/
def Channel.begun (now level : Nat) (normal : Bool) (m : Motion) (c : Channel) : Channel :=
  let x := ({ c with
    motion := some (m.start level normal)
    runDuty := c.chosenDuty (decide (m.mode = Mode.reference))
    ramp := some ⟨now / Config.usPerMs, now / Config.usPerMs⟩
    runSince := some (now / Config.usPerMs) }).zeroAccum
  let x := if m.mode = Mode.reference then x.setDatum .seeking else x
  x.setMState .starting

theorem Channel.begun_eq (now level : Nat) (normal : Bool) (m : Motion) (c : Channel) : c.begun now level normal m = { c with
    motion := some (m.start level normal)
    runDuty := c.chosenDuty (decide (m.mode = Mode.reference))
    ramp := some ⟨now / 1000, now / 1000⟩, runSince := some (now / 1000), accum := List.replicate c.tune.z ⟨0, 0⟩
    datum := if m.mode = Mode.reference then .seeking else c.datum, mstate := .starting
    trips := (c.begun now level normal m).trips, statusDue := (c.begun now level normal m).statusDue } := by
  unfold Channel.begun
  dsimp only
  split <;> rfl

section
variable (c : Channel) (now level : Nat) (normal : Bool) (m : Motion)
@[simp] theorem Channel.begun_bridge : (c.begun now level normal m).bridge =
    c.bridge := by rw [Channel.begun_eq]
@[simp] theorem Channel.begun_position : (c.begun now level normal m).position =
    c.position := by rw [Channel.begun_eq]
@[simp] theorem Channel.begun_stopCause : (c.begun now level normal m).stopCause =
    c.stopCause := by rw [Channel.begun_eq]
@[simp] theorem Channel.begun_owner : (c.begun now level normal m).owner =
    c.owner := by rw [Channel.begun_eq]
@[simp] theorem Channel.begun_holdTimer : (c.begun now level normal m).holdTimer =
    c.holdTimer := by rw [Channel.begun_eq]
@[simp] theorem Channel.begun_zones : (c.begun now level normal m).zones =
    c.zones := by rw [Channel.begun_eq]
@[simp] theorem Channel.begun_strikes : (c.begun now level normal m).strikes =
    c.strikes := by rw [Channel.begun_eq]
@[simp] theorem Channel.begun_tune : (c.begun now level normal m).tune =
    c.tune := by rw [Channel.begun_eq]
@[simp] theorem Channel.begun_strip : (c.begun now level normal m).strip =
    c.strip := by rw [Channel.begun_eq]
@[simp] theorem Channel.begun_switched1 : (c.begun now level normal m).switched1 =
    c.switched1 := by rw [Channel.begun_eq]
@[simp] theorem Channel.begun_switched2 : (c.begun now level normal m).switched2 =
    c.switched2 := by rw [Channel.begun_eq]
@[simp] theorem Channel.begun_motion : (c.begun now level normal m).motion =
    some (m.start level normal) := by rw [Channel.begun_eq]
@[simp] theorem Channel.begun_runDuty : (c.begun now level normal m).runDuty =
    c.chosenDuty (decide (m.mode = Mode.reference)) := by rw [Channel.begun_eq]
@[simp] theorem Channel.begun_ramp : (c.begun now level normal m).ramp =
    some ⟨now / 1000, now / 1000⟩ := by rw [Channel.begun_eq]
@[simp] theorem Channel.begun_runSince : (c.begun now level normal m).runSince =
    some (now / 1000) := by rw [Channel.begun_eq]
@[simp] theorem Channel.begun_accum : (c.begun now level normal m).accum =
    List.replicate c.tune.z ⟨0, 0⟩ := by rw [Channel.begun_eq]
@[simp] theorem Channel.begun_datum : (c.begun now level normal m).datum =
    if m.mode = Mode.reference then .seeking else c.datum := by rw [Channel.begun_eq]
@[simp] theorem Channel.begun_mstate : (c.begun now level normal m).mstate =
    .starting := by rw [Channel.begun_eq]

theorem Channel.enterStarting_eq : c.enterStarting now level normal m = if c.tune.ramp = 0 then
        ((c.begun now level normal m).enterRunning.setBridge now m.dir.bridge
          (c.chosenDuty (decide (m.mode = Mode.reference)))).refreshDuty
      else (c.begun now level normal m).setBridge now m.dir.bridge c.tune.startDuty := by
  have hTune : (c.begun now level normal m).tune = c.tune := Channel.begun_tune c now level normal m
  rw [← hTune]
  rfl

@[simp] theorem Channel.enterStarting_bridge : (c.enterStarting now level normal m).bridge =
    m.dir.bridge := by
  rw [Channel.enterStarting_eq]; split <;> simp
@[simp] theorem Channel.enterStarting_position : (c.enterStarting now level normal m).position =
    c.position := by
  rw [Channel.enterStarting_eq]; split <;> simp
@[simp] theorem Channel.enterStarting_stopCause : (c.enterStarting now level normal m).stopCause =
    c.stopCause := by
  rw [Channel.enterStarting_eq]; split <;> simp
@[simp] theorem Channel.enterStarting_owner : (c.enterStarting now level normal m).owner =
    c.owner := by
  rw [Channel.enterStarting_eq]; split <;> simp
@[simp] theorem Channel.enterStarting_holdTimer : (c.enterStarting now level normal m).holdTimer =
    c.holdTimer := by
  rw [Channel.enterStarting_eq]; split <;> simp
@[simp] theorem Channel.enterStarting_zones : (c.enterStarting now level normal m).zones =
    c.zones := by
  rw [Channel.enterStarting_eq]; split <;> simp
@[simp] theorem Channel.enterStarting_strikes : (c.enterStarting now level normal m).strikes =
    c.strikes := by
  rw [Channel.enterStarting_eq]; split <;> simp
@[simp] theorem Channel.enterStarting_tune : (c.enterStarting now level normal m).tune =
    c.tune := by
  rw [Channel.enterStarting_eq]; split <;> simp
@[simp] theorem Channel.enterStarting_strip : (c.enterStarting now level normal m).strip =
    c.strip := by
  rw [Channel.enterStarting_eq]; split <;> simp
@[simp] theorem Channel.enterStarting_motion : (c.enterStarting now level normal m).motion =
    some (m.start level normal) := by
  rw [Channel.enterStarting_eq]; split <;> simp
@[simp] theorem Channel.enterStarting_runDuty : (c.enterStarting now level normal m).runDuty =
    c.chosenDuty (decide (m.mode = Mode.reference)) := by
  rw [Channel.enterStarting_eq]; split <;> simp
@[simp] theorem Channel.enterStarting_ramp : (c.enterStarting now level normal m).ramp =
    if c.tune.ramp = 0 then none else some ⟨now / 1000, now / 1000⟩ := by
  rw [Channel.enterStarting_eq]; split <;> simp [*]
@[simp] theorem Channel.enterStarting_runSince : (c.enterStarting now level normal m).runSince =
    some (now / 1000) := by
  rw [Channel.enterStarting_eq]; split <;> simp
@[simp] theorem Channel.enterStarting_accum : (c.enterStarting now level normal m).accum =
    List.replicate c.tune.z ⟨0, 0⟩ := by
  rw [Channel.enterStarting_eq]; split <;> simp
@[simp] theorem Channel.enterStarting_datum : (c.enterStarting now level normal m).datum =
    if m.mode = Mode.reference then .seeking else c.datum := by
  rw [Channel.enterStarting_eq]; split <;> simp
@[simp] theorem Channel.enterStarting_mstate : (c.enterStarting now level normal m).mstate =
    if c.tune.ramp = 0 then .running else .starting := by
  rw [Channel.enterStarting_eq]; split <;> simp [*]
end

/-! ### Drive phase, stall timer and gates of a channel that starts (R9, R39, R82, R83, R190) -/

section
variable {c : Channel} {now level : Nat} {normal : Bool} {m : Motion}

theorem Dir.bridge_ne_off (d : Dir) : d.bridge ≠ .off := by cases d <;> nofun

theorem Dir.bridge_dir (d : Dir) : d.bridge.dir = some d := by cases d <;> rfl

theorem Channel.enterStarting_phase (h : c.bridge = .off) :
    (c.enterStarting now level normal m).phase = some ⟨m.dir, now, false⟩ := by
  have hNe : m.dir.bridge ≠ c.bridge := h ▸ m.dir.bridge_ne_off
  rw [Channel.enterStarting_eq]
  split
  · rw [Channel.refreshDuty_phase, Channel.setBridge_phase (by simpa using hNe), m.dir.bridge_dir]; rfl
  · rw [Channel.setBridge_phase (by simpa using hNe), m.dir.bridge_dir]; rfl

theorem Channel.enterStarting_stallTimer (h : c.bridge = .off) :
    (c.enterStarting now level normal m).stallTimer = some (now / 1000 + c.tune.tss) := by
  have hNe : m.dir.bridge ≠ c.bridge := h ▸ m.dir.bridge_ne_off
  rw [Channel.enterStarting_eq]
  split
  · rw [Channel.refreshDuty_stallTimer, Channel.setBridge_stallTimer (by simpa using hNe), m.dir.bridge_dir]
    simp [startTimer, Config.usPerMs]
  · rw [Channel.setBridge_stallTimer (by simpa using hNe), m.dir.bridge_dir]
    simp [startTimer, Config.usPerMs]

theorem Channel.enterStarting_switched1 (h : c.bridge = .off) :
    (c.enterStarting now level normal m).switched1 = some now := by
  rw [Channel.enterStarting_eq]
  split <;> simp [Channel.setBridge_switched1, h] <;> cases m.dir <;> rfl

theorem Channel.enterStarting_switched2 (h : c.bridge = .off) :
    (c.enterStarting now level normal m).switched2 = some now := by
  rw [Channel.enterStarting_eq]
  split <;> simp [Channel.setBridge_switched2, h] <;> cases m.dir <;> rfl

theorem Channel.enterStarting_ramped (h : c.tune.ramp ≠ 0) :
    (c.enterStarting now level normal m).duty = c.tune.startDuty := by
  rw [Channel.enterStarting_eq, if_neg h, Channel.setBridge_duty]

/-- With ramp time 0 the detector of the channel starts afresh (R28, R86). -/
theorem Channel.enterStarting_unramped (h : c.tune.ramp = 0) :
    (c.enterStarting now level normal m).ring = [] ∧ (c.enterStarting now level normal m).settled = 0 ∧
    (c.enterStarting now level normal m).trips = 0 := by
  rw [Channel.enterStarting_eq, if_pos h]
  simp

/-- The bridge goes from a drive it took at this µs to BRAKE: both sides were switched now (R190). -/
theorem switchedAt_brake {side : Bridge → Nat → Side} {b : Bridge} :
    switchedAt side now b .brake (some now) = some now := by
  unfold switchedAt
  split <;> rfl

theorem Channel.takeIncident_switched (h1 : c.switched1 = some now) (h2 : c.switched2 = some now)
    (cause : IncidentCause) (ref : Nat) :
    (c.takeIncident now cause ref).switched1 = some now ∧ (c.takeIncident now cause ref).switched2 = some now := by
  have hStruck1 : (c.struck cause).switched1 = some now := by rw [Channel.struck_eq]; exact h1
  have hStruck2 : (c.struck cause).switched2 = some now := by rw [Channel.struck_eq]; exact h2
  rw [Channel.takeIncident_eq]
  constructor
  · change (Channel.setBridge now .brake 0 _).switched1 = _
    rw [Channel.setBridge_switched1]
    simp only [Channel.setMState_switched1, Channel.setMState_bridge, Channel.mapMotion, Channel.freezeRun_switched1,
      Channel.freezeRun_bridge, Channel.release_switched1, Channel.release_bridge, hStruck1]
    exact switchedAt_brake
  · change (Channel.setBridge now .brake 0 _).switched2 = _
    rw [Channel.setBridge_switched2]
    simp only [Channel.setMState_switched2, Channel.setMState_bridge, Channel.mapMotion, Channel.freezeRun_switched2,
      Channel.freezeRun_bridge, Channel.release_switched2, Channel.release_bridge, hStruck2]
    exact switchedAt_brake

/-- Both sides switched at one µs are held off for the dead time, and then follow the bridge (R82, R190). -/
theorem Channel.gatesAt_switched {t : Nat} (h1 : c.switched1 = some t) (h2 : c.switched2 = some t) (at' : Nat) :
    c.gatesAt at' = if at' < t + 1 then (⟨.off, .off⟩, ⟨.off, .off⟩)
      else (side1 c.bridge c.duty, side2 c.bridge c.duty) := by
  simp only [Channel.gatesAt, deadTime, h1, h2, Option.any_some, Config.deadTimeUs]
  by_cases hEarly : at' < t + 1 <;> simp [hEarly]

end

/-! ### The head of the start queue (R84, R85, R133, R134) -/

section
variable {s t : State} {c : Chan} {rest : List Chan} {m : Motion} {d : Dir} {x : Channel}

/-- The spacing timer that a start begins (R134). -/
def State.startSpacing (s : State) : Option Nat :=
  if s.globals.spacing = 0 then none else startTimer s.clock s.globals.spacing

/-- The part whose channel `c`, taken from the start queue, becomes `x`. -/
def State.admitted (s : State) (c : Chan) (rest : List Chan) (spacing : Option Nat) (x : Channel) : State :=
  { s.setCh c x with startQueue := rest, spacingTimer := spacing }

theorem State.admitted_ch (s : State) (c : Chan) (rest : List Chan) (spacing : Option Nat) (x : Channel) :
    (s.admitted c rest spacing x).ch c = x := State.ch_setCh_self s c x

theorem admitted_oneChannel (s : State) (c : Chan) (rest : List Chan) (spacing : Option Nat) (x : Channel) :
    oneChannel c { s with startQueue := rest, spacingTimer := spacing } (s.admitted c rest spacing x) :=
  setCh_oneChannel c x _

theorem flush_admitted (hs : s.noneDue) {spacing : Option Nat} (ht : t = flush (s.admitted c rest spacing x)) :
    t.startQueue = rest ∧ t.spacingTimer = spacing ∧ t.ch c = { x with statusDue := false } ∧ othersKept c s t ∧
    { t with channels := s.channels, txQueue := s.txQueue, startQueue := s.startQueue
             spacingTimer := s.spacingTimer } = s := by
  refine ⟨by rw [ht, flush_rest]; rfl, by rw [ht, flush_rest]; rfl, by rw [ht, flush_ch, State.admitted_ch], ?_,
    by rw [ht, flush_rest]; rfl⟩
  exact ht ▸ flush_othersKept hs (admitted_oneChannel s c rest spacing x).others

/-- The admission that may happen takes the head. -/
theorem exec_admission (hQueue : s.startQueue = c :: rest) (hDriving : s.driving < s.globals.m)
    (hSpacing : s.spacingTimer = none) (hHold : s.holdLine.level = false) :
    exec .admission s = .next (flush (admitHead c { s with startQueue := rest })) := by
  have hMay : s.mayAdmit = true := by simp [State.mayAdmit, hDriving, hSpacing, hHold]
  have hExec : exec .admission s = execAdmission s := rfl
  rw [hExec, execAdmission, hQueue]
  exact if_pos hMay

/-- The channel with the direction of its goal derived again. -/
def Channel.directed (m : Motion) (u : Channel) : Channel := u.setDir (wishDir u.tune.axis m.goal u.position)

theorem Channel.directed_eq {u : Channel} {w : Option Dir} (hMotion : u.motion = some m)
    (hWish : wishDir u.tune.axis m.goal u.position = w) : u.directed m = { u with
      motion := some { m with dir := w.getD m.dir }
      owner := u.owner.map fun o => { o with dir := w.getD o.dir } } := by
  rw [Channel.directed, hWish, Channel.setDir, Channel.mapMotion, hMotion]
  rfl

theorem Channel.directed_motionEnd {u : Channel} {g : Goal} (hMotion : u.motion = some m) (hMode : m.mode ≠ .reference)
    (hGoal : m.goal = some g) : (u.directed m).motionEnd =
      endCause u.tune u.datum g ((goalDir u.tune.axis g u.position).getD m.dir) u.position := by
  have hWish : wishDir u.tune.axis m.goal u.position = goalDir u.tune.axis g u.position := by rw [hGoal]; rfl
  rw [Channel.directed_eq hMotion hWish]
  simp only [Channel.motionEnd, if_neg hMode, hGoal]

theorem Channel.directed_reference {u : Channel} (hMotion : u.motion = some m) (hMode : m.mode = .reference) :
    (u.directed m).motionEnd = none := by
  rw [Channel.directed_eq hMotion rfl]
  exact if_pos hMode

theorem admitHead_ends {cause : StopCause} (hMotion : (s.ch c).motion = some m)
    (hy : (s.ch c).directed m = x) (hEnd : x.motionEnd = some cause) :
    admitHead c s = s.setCh c (x.dropMotion s.clock cause) := by
  unfold Channel.directed at hy
  simp only [admitHead, State.modCh, hMotion, hy, State.ch_setCh_self, hEnd, setCh_setCh]
  rfl

theorem admitHead_starts {m' : Motion} (hMotion : (s.ch c).motion = some m)
    (hy : (s.ch c).directed m = x) (hm : x.motion = some m') (hEnd : x.motionEnd = none) :
    admitHead c s = judgeStrip c { s.setCh c (x.enterStarting s.clock s.roughness (decide (s.band = .normal)) m') with
      spacingTimer := s.startSpacing } := by
  unfold Channel.directed at hy
  simp only [admitHead, State.modCh, hMotion, hy, State.ch_setCh_self, hEnd, hm, setCh_setCh]
  rfl

theorem exec_admission_ends {g : Goal} {cause : StopCause} (hQueue : s.startQueue = c :: rest)
    (hDriving : s.driving < s.globals.m) (hSpacing : s.spacingTimer = none) (hHold : s.holdLine.level = false)
    (hMotion : (s.ch c).motion = some m) (hMode : m.mode ≠ .reference) (hGoal : m.goal = some g)
    (hEnd : endCause (s.ch c).tune (s.ch c).datum g ((goalDir (s.ch c).tune.axis g (s.ch c).position).getD m.dir)
      (s.ch c).position = some cause) : exec .admission s = .next (flush (s.admitted c rest s.spacingTimer
        (((s.ch c).directed m).dropMotion s.clock cause))) := by
  rw [exec_admission hQueue hDriving hSpacing hHold, admitHead_ends (s := { s with startQueue := rest })
    (by exact hMotion) rfl ((Channel.directed_motionEnd (by exact hMotion) hMode hGoal).trans hEnd)]
  rfl

/-- What the admission of the head looks at: a REFERENCE, or a goal that gives a direction and is not reached. -/
def Channel.mayDrive (m : Motion) (d : Dir) (u : Channel) : Prop :=
  (m.mode = .reference ∧ m.goal = none ∧ d = .dec) ∨
    (m.mode ≠ .reference ∧ ∃ g, m.goal = some g ∧ goalDir u.tune.axis g u.position = some d ∧
      endCause u.tune u.datum g d u.position = none)

/-- The channel whose motion `m` and whose owner take the direction `d`. -/
def Channel.toward (m : Motion) (d : Dir) (u : Channel) : Channel :=
  { u with motion := some { m with dir := d }, owner := u.owner.map fun o => { o with dir := d } }

/-- The head, started toward `d`. -/
def State.startedHead (s : State) (c : Chan) (m : Motion) (d : Dir) : Channel :=
  ((s.ch c).toward m d).enterStarting s.clock s.roughness (decide (s.band = .normal)) { m with dir := d }

theorem exec_admission_starts (hQueue : s.startQueue = c :: rest) (hDriving : s.driving < s.globals.m)
    (hSpacing : s.spacingTimer = none) (hHold : s.holdLine.level = false) (hMotion : (s.ch c).motion = some m)
    (hMay : (s.ch c).mayDrive m d) : exec .admission s = .next (flush (judgeStrip c
      (s.admitted c rest s.startSpacing (s.startedHead c m d)))) := by
  rw [exec_admission hQueue hDriving hSpacing hHold]
  have hWish : wishDir (s.ch c).tune.axis m.goal (s.ch c).position = some d := by
    obtain ⟨-, hGoal, rfl⟩ | ⟨-, g, hGoal, hDir, -⟩ := hMay
    · rw [hGoal]; rfl
    · rw [hGoal]; exact hDir
  have hDirected := Channel.directed_eq hMotion hWish
  have hEnd : ((s.ch c).directed m).motionEnd = none := by
    obtain ⟨hMode, -⟩ | ⟨hMode, g, hGoal, hDir, hOpen⟩ := hMay
    · exact Channel.directed_reference hMotion hMode
    · rw [Channel.directed_motionEnd hMotion hMode hGoal, hDir]; exact hOpen
  rw [hDirected] at hEnd
  rw [admitHead_starts (s := { s with startQueue := rest }) (by exact hMotion) (by exact hDirected) rfl hEnd]
  rfl

/-- The strip of a channel that starts: it trips where it is pressed toward 0 outside the seal zone (R44, R45). -/
theorem startedHead_trips_iff : (s.startedHead c m d).stripTrips = true ↔ (s.ch c).stripPressed d ∧
    ¬((s.startedHead c m d).datum = .referenced ∧ (s.ch c).position.natAbs ≤ (s.ch c).tune.s) := by
  have hState : (s.startedHead c m d).mstate = .starting ∨ (s.startedHead c m d).mstate = .running := by
    simp only [State.startedHead, Channel.enterStarting_mstate]
    split <;> simp
  have hBridge : (s.startedHead c m d).bridge = d.bridge := by simp [State.startedHead]
  have hPosition : (s.startedHead c m d).position = (s.ch c).position := by
    simp [State.startedHead, Channel.toward]
  have hTune : (s.startedHead c m d).tune = (s.ch c).tune := by
    simp [State.startedHead, Channel.toward]
  have hStrip : (s.startedHead c m d).strip = (s.ch c).strip := by
    simp [State.startedHead, Channel.toward]
  have hToward : (s.startedHead c m d).drivesTowardZero = towardZero (s.ch c).tune.axis d (s.ch c).position := by
    simp only [Channel.drivesTowardZero, hBridge, d.bridge_dir, hPosition, hTune]
  rw [Channel.stripTrips_iff, hTune, hStrip, hPosition, hToward]
  simp only [Channel.stripPressed, hState, true_and]
  cases hAxis : (s.ch c).tune.axis <;> simp [towardZero] <;> tauto

end

/-- Settles O19: the direction of the goal is derived again, and a motion whose end condition then holds ends
without driving. -/
theorem admissionMayEndAtOnce : Obligations.AdmissionMayEndAtOnce := by
  intro s c rest m g cause hs hQueue hDriving hSpacing hHold hState hBridge hMotion hGoal hMode hEnd
  have hExec := exec_admission_ends hQueue hDriving hSpacing hHold hMotion hMode hGoal hEnd
  obtain ⟨hRest, hTimer, hCh, hOthers, -⟩ := flush_admitted (spacing := s.spacingTimer) hs
    (t := flush (s.admitted c rest s.spacingTimer (((s.ch c).directed m).dropMotion s.clock cause))) rfl
  refine ⟨_, hExec, hRest, hTimer.trans hSpacing, ?_, ?_, ?_, ?_, ?_, ?_, ?_, ?_, hOthers, ?_⟩
  case refine_4 =>
    rw [hCh, Channel.directed_eq hMotion rfl, Channel.dropMotion_holdTimer]
    simp
  case refine_8 => rw [hCh, Channel.directed_eq hMotion rfl]; simp
  case refine_9 => rw [flush_rest]; rfl
  all_goals rw [hCh]; simp

section
variable {s t : State} {c : Chan} {rest : List Chan} {m : Motion} {d : Dir} {x : Channel}

/-- An admitted head whose strip does not trip drives. -/
theorem exec_admission_drives (hQueue : s.startQueue = c :: rest) (hDriving : s.driving < s.globals.m)
    (hSpacing : s.spacingTimer = none) (hHold : s.holdLine.level = false) (hMotion : (s.ch c).motion = some m)
    (hMay : (s.ch c).mayDrive m d) (hStrip : (s.startedHead c m d).stripTrips ≠ true) :
    exec .admission s = .next (flush (s.admitted c rest s.startSpacing (s.startedHead c m d))) := by
  rw [exec_admission_starts hQueue hDriving hSpacing hHold hMotion hMay, judgeStrip_untripped]
  rw [State.admitted_ch]
  exact Bool.eq_false_iff.mpr hStrip

theorem startedHead_datum : (s.startedHead c m d).datum =
    if m.mode = Mode.reference then .seeking else (s.ch c).datum := by
  simp [State.startedHead, Channel.toward]

theorem startedHead_switched (hBridge : (s.ch c).bridge = .off) :
    (s.startedHead c m d).switched1 = some s.clock ∧ (s.startedHead c m d).switched2 = some s.clock :=
  ⟨Channel.enterStarting_switched1 hBridge, Channel.enterStarting_switched2 hBridge⟩

theorem startedHead_phase (hBridge : (s.ch c).bridge = .off) :
    (s.startedHead c m d).phase = some ⟨d, s.clock, false⟩ := Channel.enterStarting_phase hBridge

theorem startedHead_stallTimer (hBridge : (s.ch c).bridge = .off) :
    (s.startedHead c m d).stallTimer = some (s.ms + (s.ch c).tune.tss) := Channel.enterStarting_stallTimer hBridge

theorem startedHead_motion : (s.startedHead c m d).motion = some { m with
    dir := d, started := true, maxRough := max m.maxRough s.roughness
    supplyNormal := m.supplyNormal && decide (s.band = .normal) } := by
  simp [State.startedHead, Motion.start]

/-- A REFERENCE runs at the limp duty without a soft zone, for its channel is SEEKING (R85, R87). -/
theorem startedHead_limp (hRamp : (s.ch c).tune.ramp = 0) (hMode : m.mode = .reference) :
    (s.startedHead c m d).duty = (s.ch c).tune.limpDuty := by
  simp only [State.startedHead, Channel.enterStarting_eq, Channel.toward, if_pos hRamp, hMode]
  rw [Channel.refreshDuty, if_pos (by simp), Channel.runningDuty]
  simp [Channel.chosenDuty]

/-- Sides switched at this µs stay held off for the dead time, and then give the gates of BRAKE (R82, R190). -/
theorem Channel.takeIncident_gatesAt {now : Nat} (h1 : x.switched1 = some now) (h2 : x.switched2 = some now)
    (cause : IncidentCause) (ref at' : Nat) : (x.takeIncident now cause ref).gatesAt at' =
      if at' < now + 1 then (⟨.off, .off⟩, ⟨.off, .off⟩) else (⟨.off, .on⟩, ⟨.off, .on⟩) := by
  obtain ⟨hGate1, hGate2⟩ := Channel.takeIncident_switched h1 h2 cause ref
  rw [Channel.gatesAt_switched hGate1 hGate2, Channel.takeIncident_bridge]
  rfl

/-- What an EDGE incident leaves of the started head `x` (R94). -/
theorem flush_tripped {o : Owner} {spacing : Option Nat} (hs : s.noneDue) (hOwner : x.owner = some o)
    (hMotion : x.motion = some m) (hDrives : x.bridge ≠ .brake) (h1 : x.switched1 = some s.clock)
    (h2 : x.switched2 = some s.clock) (ht : t = flush (declareIncident c .edge none (s.admitted c rest spacing x))) :
    t.startQueue = rest ∧ t.spacingTimer = spacing ∧
    (∃ y, t.ch c = y ∧ y.mstate = .braking ∧ y.bridge = .brake ∧ y.duty = 0 ∧ y.ramp = none ∧ y.stallTimer = none ∧
      y.runSince = none ∧ y.stopCause = .edge ∧ y.owner = none ∧ y.holdTimer = none ∧
      y.brakeTimer = some (s.ms + x.tune.brake) ∧
      y.motion.map (·.braking) = some (some ⟨.reversal, false⟩) ∧ y.motion.map (·.started) = some m.started ∧
      y.datum = (if x.datum = .seeking then .unreferenced else x.datum) ∧ y.strikes = min 3 (x.strikes + 1) ∧
      y.position = x.position ∧ y.zones = x.zones ∧
      ∀ now, y.gatesAt now =
        if now < s.clock + 1 then (⟨.off, .off⟩, ⟨.off, .off⟩) else (⟨.off, .on⟩, ⟨.off, .on⟩)) ∧
    (∃ r, t.incidents.getLast? = some r ∧ r.cause = .edge ∧ r.chan = c ∧ r.owner = o.slot ∧ r.mode = m.mode ∧
      r.position = x.position ∧ r.force = none) ∧
    othersKept c s t ∧ { t with
      channels := s.channels, txQueue := s.txQueue, startQueue := s.startQueue, spacingTimer := s.spacingTimer
      incidents := s.incidents, nextRef := s.nextRef, readout := s.readout } = s := by
  have hOne := (admitted_oneChannel s c rest spacing x).trans (declareIncident_oneChannel c .edge none _)
  have hCh : t.ch c = { (x.strike s.clock s.globals.strikeWindow).takeIncident s.clock .edge s.nextRef with
      statusDue := false } := by
    rw [ht, flush_ch, declareIncident_ch, State.admitted_ch]; rfl
  have hTaken := Channel.takeIncident_motion (c := x.strike s.clock s.globals.strikeWindow) s.clock .edge s.nextRef
    (by exact hMotion)
  obtain ⟨r, hLast, hCause, hChan, hSlot, hMode, hPlace, hForce⟩ := flush_declared_last
    (s := s.admitted c rest spacing x) (c := c) (o := o) (by rw [State.admitted_ch]; exact hOwner)
    (by rw [State.admitted_ch]; exact hMotion) .edge none
  rw [State.admitted_ch] at hPlace
  refine ⟨by rw [ht, flush_declared_rest]; rfl, by rw [ht, flush_declared_rest]; rfl, ⟨_, hCh, ?_⟩,
    ⟨r, ht ▸ hLast, hCause, hChan, hSlot, hMode, hPlace, hForce⟩, ht ▸ flush_othersKept hs hOne.others,
    by rw [ht, flush_declared_rest]; rfl⟩
  have hStall := Channel.takeIncident_stallTimer (c := x.strike s.clock s.globals.strikeWindow) s.clock .edge s.nextRef
    hDrives
  have hTimer := Channel.takeIncident_holdTimer (c := x.strike s.clock s.globals.strikeWindow) s.clock .edge s.nextRef
    hOwner
  exact ⟨by simp, by simp, by simp, by simp, hStall, by simp, by simp [IncidentCause.stop], by simp, hTimer,
    by simp; rfl, congrArg (Option.map (·.braking)) hTaken, congrArg (Option.map (·.started)) hTaken, by simp; rfl,
    by simp, by simp, by simp, Channel.takeIncident_gatesAt (x := x.strike s.clock s.globals.strikeWindow) h1 h2 .edge
      s.nextRef⟩

end

/-- Settles O18: the head of the start queue is started toward its direction; its strip may then trip. -/
theorem admissionStartsTheHead : Obligations.AdmissionStartsTheHead := by
  unfold Obligations.AdmissionStartsTheHead
  refine ⟨?motion, ?reference, ?trips, ?none⟩
  case motion =>
    intro s c rest m g d hs hQueue hDriving hSpacing hHold hState hBridge hMotion hGoal hMode hStrip hDir hOpen
    have hDatum : (s.startedHead c m d).datum = (s.ch c).datum := startedHead_datum.trans (if_neg hMode)
    have hExec := exec_admission_drives hQueue hDriving hSpacing hHold hMotion (.inr ⟨hMode, g, hGoal, hDir, hOpen⟩)
      (fun h => hStrip (by simpa only [hDatum] using startedHead_trips_iff.mp h))
    obtain ⟨hRest, hTimer, hCh, hOthers, hFrame⟩ := flush_admitted (spacing := s.startSpacing) hs
      (t := flush (s.admitted c rest s.startSpacing (s.startedHead c m d))) rfl
    have hSwitched := startedHead_switched (m := m) (d := d) hBridge
    refine ⟨_, hExec, hRest, hTimer, ?_, ?_, ?_, ?_, ?_, ?_, ?_, ?_, ?_, fun now => ?_, hOthers, hFrame⟩
    case refine_2 => rw [hCh]; exact startedHead_phase hBridge
    case refine_3 => rw [hCh]; exact startedHead_stallTimer hBridge
    case refine_4 =>
      rw [hCh]
      simp [State.startedHead, Channel.toward, hMode, Channel.chosenDuty]
    case refine_5 => rw [hCh]; exact Channel.enterStarting_runSince _ _ _ _ _
    case refine_6 => rw [hCh]; exact hDatum
    case refine_8 => rw [hCh]; exact startedHead_motion
    case refine_9 =>
      rw [hCh]
      split
      case isTrue hRamp =>
        obtain ⟨hRing, hSettled, hTrips⟩ := Channel.enterStarting_unramped (c := (s.ch c).toward m d) hRamp
        exact ⟨by simp [State.startedHead, Channel.toward, hRamp], by simp [State.startedHead, Channel.toward, hRamp],
          hRing, hSettled, hTrips⟩
      case isFalse hRamp =>
        exact ⟨by simp [State.startedHead, Channel.toward, hRamp],
          Channel.enterStarting_ramped (c := (s.ch c).toward m d) hRamp,
          by simp [State.startedHead, Channel.toward, hRamp]; rfl⟩
    case refine_10 =>
      have hTo : (s.startedHead c m d).bridge = d.bridge := by simp [State.startedHead]
      rw [hCh]
      refine (Channel.gatesAt_switched (by exact hSwitched.1) (by exact hSwitched.2) now).trans ?_
      simp only [hTo]
      cases d <;> rfl
    all_goals rw [hCh]; simp [State.startedHead, Channel.toward]
  case reference =>
    intro s c rest m hs hQueue hDriving hSpacing hHold hState hBridge hMotion hMode hGoal hStrip
    have hExec := exec_admission_drives (d := .dec) hQueue hDriving hSpacing hHold hMotion (.inl ⟨hMode, hGoal, rfl⟩)
      (fun h => hStrip (startedHead_trips_iff.mp h).1)
    obtain ⟨hRest, hTimer, hCh, hOthers, hFrame⟩ := flush_admitted (spacing := s.startSpacing) hs
      (t := flush (s.admitted c rest s.startSpacing (s.startedHead c m .dec))) rfl
    refine ⟨_, hExec, hRest, hTimer, ?_, ?_, ?_, ?_, ?_, ?_, ?_, ?_, ?_, ?_, ?_, hOthers, hFrame⟩
    case refine_1 => rw [hCh]; exact startedHead_datum.trans (if_pos hMode)
    case refine_2 => rw [hCh]; simp [State.startedHead, Channel.toward, hMode, Channel.chosenDuty]
    case refine_3 => rw [hCh]; exact Channel.enterStarting_bridge _ _ _ _ _
    case refine_4 => rw [hCh]; exact startedHead_phase hBridge
    case refine_5 => rw [hCh]; exact startedHead_stallTimer hBridge
    case refine_6 => rw [hCh]; exact Channel.enterStarting_runSince _ _ _ _ _
    case refine_8 => rw [hCh]; exact startedHead_motion
    case refine_9 =>
      rw [hCh]
      split
      case isTrue hRamp =>
        exact ⟨by simp [State.startedHead, Channel.toward, hRamp], startedHead_limp hRamp hMode,
          by simp [State.startedHead, Channel.toward, hRamp]⟩
      case isFalse hRamp =>
        exact ⟨by simp [State.startedHead, Channel.toward, hRamp],
          Channel.enterStarting_ramped (c := (s.ch c).toward m .dec) hRamp,
          by simp [State.startedHead, Channel.toward, hRamp]; rfl⟩
    all_goals rw [hCh]; simp [State.startedHead, Channel.toward]
  case trips =>
    intro s c rest m o d u hs hQueue hDriving hSpacing hHold hState hBridge hMotion hOwner hDrive hPressed
    have hMay : (s.ch c).mayDrive m d := hDrive.imp_right fun ⟨hMode, _, h⟩ => ⟨hMode, h⟩
    have hOutside : ¬((s.startedHead c m d).datum = .referenced ∧ (s.ch c).position.natAbs ≤ (s.ch c).tune.s) := by
      rw [startedHead_datum]
      obtain ⟨hMode, -⟩ | ⟨hMode, hOut, -⟩ := hDrive
      · rw [if_pos hMode]; nofun
      · rw [if_neg hMode]; exact hOut
    have hTrips : ((s.admitted c rest s.startSpacing (s.startedHead c m d)).ch c).stripTrips = true := by
      rw [State.admitted_ch]; exact startedHead_trips_iff.mpr ⟨hPressed, hOutside⟩
    have hExec := exec_admission_starts hQueue hDriving hSpacing hHold hMotion hMay
    rw [judgeStrip_tripped hTrips] at hExec
    obtain ⟨hSwitched1, hSwitched2⟩ := startedHead_switched (m := m) (d := d) hBridge
    have hOwned : (s.startedHead c m d).owner = some { o with dir := d } := by
      rw [State.startedHead, Channel.enterStarting_owner, Channel.toward, show (s.ch c).owner = some o from hOwner]
      rfl
    have hDrives : (s.startedHead c m d).bridge ≠ .brake := by
      rw [State.startedHead, Channel.enterStarting_bridge]
      cases d <;> nofun
    have hDatum := startedHead_datum (s := s) (c := c) (m := m) (d := d)
    have hStrikes : (s.startedHead c m d).strikes = (s.ch c).strikes := Channel.enterStarting_strikes _ _ _ _ _
    have hPosition : (s.startedHead c m d).position = (s.ch c).position := Channel.enterStarting_position _ _ _ _ _
    have hZones : (s.startedHead c m d).zones = (s.ch c).zones := Channel.enterStarting_zones _ _ _ _ _
    have hTune : (s.startedHead c m d).tune = (s.ch c).tune := Channel.enterStarting_tune _ _ _ _ _
    obtain ⟨hRest, hTimer, ⟨y, hCh, hState', hBridge', hDuty, hRamp, hStall, hRun, hCause, hFree, hHoldTimer, hBrake,
      hBraking, hBegun, hDatum', hStrikes', hPosition', hZones', hGates⟩, hLast, hOthers, hFrame⟩ :=
      flush_tripped hs hOwned startedHead_motion hDrives hSwitched1 hSwitched2 rfl
    refine ⟨_, hExec, hRest, hTimer, ?_⟩
    rw [hCh]
    refine ⟨hState', hBridge', hDuty, hRamp, hStall, hRun, hCause, hFree, hHoldTimer, ?_, ?_, ?_, ?_, ?_, ?_, ?_, ?_,
      hGates, hOthers, hFrame⟩
    · rw [hBrake, hTune]
    · exact hBraking
    · exact hBegun
    · rw [hDatum', hDatum]
      by_cases hMode : m.mode = Mode.reference <;> simp [hMode, u]
    · rw [hStrikes', hStrikes]
    · rw [hPosition', hPosition]
    · rw [hZones', hZones]
    · rw [hPosition] at hLast; exact hLast
  case none =>
    intro s hWait
    have hMay : s.mayAdmit = false := by
      obtain h | h | h := hWait
      · simp [State.mayAdmit, Nat.not_lt.mpr h]
      · simp [State.mayAdmit, ← Option.not_isSome, h]
      · simp [State.mayAdmit, h]
    have hExec : exec .admission s = execAdmission s := rfl
    rw [hExec, execAdmission]
    split
    · rw [hMay]; rfl
    · rfl

end Sys2Proof.Machine
end

section
/-! PROOFS. The agreement of one channel (O6): what it reads, and that each operation on a channel keeps it. -/

namespace Sys2Proof.Machine

/-! ### What the agreement reads -/

/-- The fields of a motion record that the agreement of its channel reads. -/
def Motion.plan (m : Motion) := (m.mode, m.dir, m.goal, m.owner, m.braking, m.pausedFrom)

/-- What the agreement of a channel reads beside its duty. -/
def Channel.drive (c : Channel) :=
  (c.mstate, c.motion.map Motion.plan, c.bridge, c.owner, c.phase.map (·.dir), c.stallTimer.isSome,
    c.brakeTimer.isSome, c.ramp.isSome, c.runSince.isSome, c.holdTimer.isSome)

/-- The drive phase and the stall timer go with the bridge (R9, R39). -/
def Channel.bridged (c : Channel) : Prop := c.phase.map (·.dir) = c.bridge.dir ∧ c.stallTimer.isSome = c.drives

/-- The hold timer stands with an owner only. -/
def Channel.holdOwned (c : Channel) : Prop := c.owner = none → c.holdTimer = none

section
variable {u v : Channel} {now : Nat}

theorem Channel.coherent.bridged (h : u.coherent) : u.bridged := by
  obtain ⟨-, -, -, -, -, -, hPhase, hStall, -⟩ := h
  exact ⟨hPhase, hStall⟩

theorem Channel.coherent.holdOwned (h : u.coherent) : u.holdOwned := by
  obtain ⟨-, -, -, -, -, -, -, -, -, -, -, hHold⟩ := h
  intro ho
  by_contra hSome
  simpa [ho] using hHold.1 (Option.isSome_iff_ne_none.2 hSome)

theorem Channel.coherent.motion_none (h : u.coherent) : u.motion = none ↔ u.mstate = .idle := h.1

theorem Channel.coherent.motion_some (h : u.coherent) (hs : u.mstate ≠ .idle) : ∃ m, u.motion = some m :=
  Option.ne_none_iff_exists'.1 (mt h.1.1 hs)

theorem Channel.coherent.bridge (h : u.coherent) : u.bridgeFollows := h.2.1

theorem Channel.coherent.ownerIs (h : u.coherent) : u.ownerFollows := h.2.2.1

theorem Channel.coherent.ownerGoal (h : u.coherent) : u.ownerGoal := h.2.2.2.1

/-- The agreement reads the drive and, where the bridge does not drive, the duty. -/
theorem Channel.coherent.congr (h : u.coherent) (hd : v.drive = u.drive)
    (hDuty : v.mstate.driving = true ∨ v.duty = u.duty) : v.coherent := by
  simp only [Channel.drive, Prod.mk.injEq] at hd
  obtain ⟨hState, hMotion, hBridge, hOwner, hPhase, hStall, hBrake, hRamp, hRun, hHold⟩ := hd
  have hRead {α : Type} (f : Motion → α) (g : _ → α) (hf : ∀ m, f m = g m.plan) : v.motion.map f = u.motion.map f := by
    have := congrArg (Option.map g) hMotion
    simpa only [Option.map_map, Function.comp_def, ← hf] using this
  have hBind {α : Type} (f : Motion → Option α) (g : _ → Option α) (hf : ∀ m, f m = g m.plan) :
      v.motion.bind f = u.motion.bind f := by
    simpa only [Option.bind_map, Function.comp_def, id_eq] using congrArg (Option.bind · id) (hRead f g hf)
  have hNone : v.motion = none ↔ u.motion = none := by
    simpa using congrArg (· = none) hMotion
  have hDir := hRead (·.dir.bridge) (·.2.1.bridge) fun _ => rfl
  have hOwned := hBind Motion.ownership
    (fun p => p.2.2.2.1.map fun i => ⟨i, false, p.1, p.2.2.1, p.2.1⟩) fun _ => rfl
  have hBraking := hBind (·.braking) (·.2.2.2.2.1) fun _ => rfl
  have hPaused := hBind (·.pausedFrom) (·.2.2.2.2.2) fun _ => rfl
  obtain ⟨h1, h2, h3, h4, h5, h6, h7, h8, h9, h10, h11, h12⟩ := h
  refine ⟨?_, ?_, ?_, ?_, ?_, ?_, ?_, ?_, ?_, ?_, ?_, ?_⟩
  · rw [hNone, hState]; exact h1
  · unfold Channel.bridgeFollows at h2 ⊢
    rw [hState] at hDuty ⊢
    rw [hBridge, hDir]
    cases hs : u.mstate <;> simp only [hs, MotionState.driving] at h2 hDuty ⊢ <;> grind
  · unfold Channel.ownerFollows Channel.owned Channel.ownedWhole Channel.pausedMaster at h3 ⊢
    rw [hState, hPaused, hBraking, hOwned, hOwner]; exact h3
  · unfold Channel.ownerGoal at h4 ⊢; rw [hOwner]; exact h4
  · rw [hBraking, hState]; exact h5
  · rw [hPaused, hState]; exact h6
  · rw [hPhase, hBridge]; exact h7
  · unfold Channel.drives at h8 ⊢; rw [hStall, hBridge]; exact h8
  · rw [hBrake, hState]; exact h9
  · rw [hRamp, hState]; exact h10
  · rw [hRun, hState]; exact h11
  · rw [hHold, hOwner]; exact h12

theorem Channel.bridged.setBridge (h : u.bridged) (now : Nat) (b : Bridge) (duty : Nat) :
    (u.setBridge now b duty).bridged := by
  by_cases hb : b = u.bridge
  · unfold Channel.setBridge
    rw [if_pos hb]
    exact h
  · unfold Channel.bridged Channel.drives
    rw [Channel.setBridge_phase hb, Channel.setBridge_stallTimer hb, Channel.setBridge_bridge]
    cases b.dir <;> simp [startTimer]

theorem Channel.bridged.congr (h : u.bridged) (hb : v.bridge = u.bridge) (hp : v.phase = u.phase)
    (hs : v.stallTimer = u.stallTimer) : v.bridged := by
  unfold Channel.bridged Channel.drives at h ⊢
  rw [hb, hp, hs]
  exact h

theorem Channel.bridged.off (h : u.bridged) (hb : u.bridge.dir = none) : u.phase = none ∧ u.stallTimer = none := by
  obtain ⟨hPhase, hStall⟩ := h
  unfold Channel.drives at hStall
  rw [hb] at hPhase hStall
  exact ⟨by simpa using hPhase, by simpa using hStall⟩

/-! ### The agreement in each motion state -/

/-- IDLE. -/
theorem Channel.coherent_idle (hs : u.mstate = .idle) (hm : u.motion = none) (hb : u.bridge = .off) (hd : u.duty = 0)
    (hBridged : u.bridged) (ho : u.owner = none) (hh : u.holdTimer = none) (hBrake : u.brakeTimer = none)
    (hRamp : u.ramp = none) (hRun : u.runSince = none) : u.coherent := by
  obtain ⟨hPhase, hStall⟩ := hBridged
  simp [Channel.coherent, Channel.bridgeFollows, Channel.ownerFollows, Channel.ownerGoal, MotionState.driving, hs, hm,
    hb, hd, ho, hh, hBrake, hRamp, hRun, hStall]
  simpa [hb] using hPhase

/-- BRAKING with the follow-on NONE or REVERSAL. -/
theorem Channel.coherent_braking {m : Motion} {b : Brake} (hs : u.mstate = .braking) (hm : u.motion = some m)
    (hBrakes : m.braking = some b) (hNot : ∀ slot mode goal d, b.followOn ≠ .motion slot mode goal d)
    (hPaused : m.pausedFrom = none) (hb : u.bridge = .brake) (hd : u.duty = 0) (hBridged : u.bridged)
    (ho : u.owner = none) (hh : u.holdTimer = none) (hBrake : u.brakeTimer.isSome = true) (hRamp : u.ramp = none)
    (hRun : u.runSince = none) : u.coherent := by
  obtain ⟨hPhase, hStall⟩ := hBridged
  obtain ⟨f, e⟩ := b
  have hFollows : u.ownerFollows := by
    unfold Channel.ownerFollows
    simp only [hs, hm, Option.bind_some, hBrakes]
    cases f with
    | motion slot mode goal d => exact absurd rfl (hNot slot mode goal d)
    | none => exact ho
    | reversal => exact ho
  refine ⟨?_, ?_, hFollows, ?_, ?_, ?_, hPhase, hStall, ?_, ?_, ?_, ?_⟩ <;>
    simp [Channel.bridgeFollows, Channel.ownerGoal, MotionState.driving, *]

/-- BRAKING with a MOTION follow-on, its owner pending. -/
theorem Channel.coherent_following {m : Motion} {slot : Slot} {mode : Mode} {goal : Goal} {d : Dir} {ended : Bool}
    (hs : u.mstate = .braking) (hm : u.motion = some m)
    (hBrakes : m.braking = some ⟨.motion slot mode goal d, ended⟩) (hMode : mode = .express ∨ mode = .hold)
    (hPaused : m.pausedFrom = none) (hb : u.bridge = .brake) (hd : u.duty = 0) (hBridged : u.bridged)
    (ho : u.owner = some ⟨slot, true, mode, some goal, d⟩) (hh : u.holdTimer.isSome = true ↔ mode = .hold)
    (hBrake : u.brakeTimer.isSome = true) (hRamp : u.ramp = none) (hRun : u.runSince = none) : u.coherent := by
  obtain ⟨hPhase, hStall⟩ := hBridged
  have hNotReference : mode ≠ .reference := by rintro rfl; simp at hMode
  refine ⟨?_, ?_, ?_, ?_, ?_, ?_, hPhase, hStall, ?_, ?_, ?_, ?_⟩ <;>
    simp [Channel.bridgeFollows, Channel.ownerFollows, Channel.ownerGoal, MotionState.driving, hs, hm, hBrakes, hMode,
      hPaused, hb, hd, ho, hh, hBrake, hRamp, hRun, hNotReference]

/-- PAUSED. -/
theorem Channel.coherent_paused {m : Motion} {x : PausedFrom} (hs : u.mstate = .paused) (hm : u.motion = some m)
    (hBrakes : m.braking = none) (hPaused : m.pausedFrom = some x) (hb : u.bridge = .off) (hd : u.duty = 0)
    (hBridged : u.bridged) (ho : match x with
      | .motion => u.owned
      | .starting | .running => u.ownedWhole
      | .reversing | .reversal => u.owner = none)
    (hg : u.ownerGoal) (hh : u.holdTimer.isSome = true ↔ u.owner.map (·.mode) = some .hold)
    (hBrake : u.brakeTimer = none) (hRamp : u.ramp = none) (hRun : u.runSince = none) : u.coherent := by
  obtain ⟨hPhase, hStall⟩ := hBridged
  have hFollows : u.ownerFollows := by
    unfold Channel.ownerFollows Channel.pausedMaster
    simp only [hs, hm, Option.bind_some, hPaused]
    cases x <;> simpa using ho
  refine ⟨?_, ?_, hFollows, hg, ?_, ?_, hPhase, hStall, ?_, ?_, ?_, hh⟩ <;>
    simp [Channel.bridgeFollows, MotionState.driving, hs, hm, hBrakes, hPaused, hb, hd, hBrake, hRamp, hRun]

/-- QUEUED. -/
theorem Channel.coherent_queued {m : Motion} (hs : u.mstate = .queued) (hm : u.motion = some m)
    (hBrakes : m.braking = none) (hPaused : m.pausedFrom = none) (hb : u.bridge = .off) (hd : u.duty = 0)
    (hBridged : u.bridged) (ho : u.owned) (hg : u.ownerGoal)
    (hh : u.holdTimer.isSome = true ↔ u.owner.map (·.mode) = some .hold) (hBrake : u.brakeTimer = none)
    (hRamp : u.ramp = none) (hRun : u.runSince = none) : u.coherent := by
  obtain ⟨hPhase, hStall⟩ := hBridged
  refine ⟨?_, ?_, ?_, hg, ?_, ?_, hPhase, hStall, ?_, ?_, ?_, hh⟩ <;>
    simp [Channel.bridgeFollows, Channel.ownerFollows, MotionState.driving, hs, hm, hBrakes, hPaused, hb, hd, ho, hBrake,
      hRamp, hRun]

/-- STARTING and RUNNING. -/
theorem Channel.coherent_driving {m : Motion} (hs : u.mstate = .starting ∨ u.mstate = .running)
    (hm : u.motion = some m) (hBrakes : m.braking = none) (hPaused : m.pausedFrom = none)
    (hb : u.bridge = m.dir.bridge) (hBridged : u.bridged) (ho : u.ownedWhole) (hg : u.ownerGoal)
    (hh : u.holdTimer.isSome = true ↔ u.owner.map (·.mode) = some .hold) (hBrake : u.brakeTimer = none)
    (hRamp : u.ramp.isSome = true ↔ u.mstate = .starting) (hRun : u.runSince.isSome = true) : u.coherent := by
  obtain ⟨hPhase, hStall⟩ := hBridged
  obtain hs | hs := hs <;> refine ⟨?_, ?_, ?_, hg, ?_, ?_, hPhase, hStall, ?_, hRamp, ?_, hh⟩ <;>
    simp [Channel.bridgeFollows, Channel.ownerFollows, MotionState.driving, hs, hm, hBrakes, hPaused, hb, ho, hBrake,
      hRun]

/-- REVERSING. -/
theorem Channel.coherent_reversing {m : Motion} (hs : u.mstate = .reversing) (hm : u.motion = some m)
    (hBrakes : m.braking = none) (hPaused : m.pausedFrom = none) (hb : u.bridge = m.dir.bridge) (hBridged : u.bridged)
    (ho : u.owner = none) (hh : u.holdTimer = none) (hBrake : u.brakeTimer = none) (hRamp : u.ramp = none)
    (hRun : u.runSince.isSome = true) : u.coherent := by
  obtain ⟨hPhase, hStall⟩ := hBridged
  refine ⟨?_, ?_, ?_, ?_, ?_, ?_, hPhase, hStall, ?_, ?_, ?_, ?_⟩ <;>
    simp [Channel.bridgeFollows, Channel.ownerFollows, Channel.ownerGoal, MotionState.driving, hs, hm, hBrakes, hPaused,
      hb, ho, hh, hBrake, hRamp, hRun]

/-! ### Owners -/

theorem Channel.ownedWhole_iff {m : Motion} (hm : u.motion = some m) :
    u.ownedWhole ↔ ∃ i, m.owner = some i ∧ u.owner = some ⟨i, false, m.mode, m.goal, m.dir⟩ := by
  unfold Channel.ownedWhole Motion.ownership
  rw [hm, Option.bind_some]
  cases m.owner with
  | none => cases u.owner <;> simp
  | some i => cases u.owner <;> simp

theorem Channel.owned_iff {m : Motion} (hm : u.motion = some m) :
    u.owned ↔ ∃ i d, m.owner = some i ∧ u.owner = some ⟨i, false, m.mode, m.goal, d⟩ := by
  unfold Channel.owned Motion.ownership
  rw [hm, Option.bind_some]
  cases m.owner with
  | none => cases u.owner <;> simp
  | some i =>
    cases u.owner with
    | none => simp
    | some o => obtain ⟨slot, pending, mode, goal, d⟩ := o; simp [eq_comm]

theorem Channel.ownedWhole.owned (h : u.ownedWhole) : u.owned := ⟨h.1, by rw [h.2]⟩

end

end Sys2Proof.Machine
end

section
/-! PROOFS. The agreement of one channel (O6), continued: each operation of the drive and of the ownership unit. -/

namespace Sys2Proof.Machine

section
variable {u v : Channel} {now : Nat}

/-! ### Ends of motions -/

theorem Channel.release_motion_some {m : Motion} (h : u.motion = some m) (now : Nat) (l : Bool) :
    ∃ i, (u.release now l).motion = some { m with owner := i } := by
  rw [Channel.release_motion]
  split
  · exact ⟨m.owner, h⟩
  · exact ⟨none, by rw [h]; rfl⟩

theorem Channel.stopWith_motion_some {m : Motion} (h : u.motion = some m) (now : Nat) (x : StopCause) :
    ∃ i, (u.stopWith now x).motion = some { m with owner := i } := by
  rw [Channel.stopWith_motion]
  split
  · exact ⟨m.owner, h⟩
  · exact ⟨none, by rw [h]; rfl⟩

theorem Channel.holdOwned.release (h : u.holdOwned) (now : Nat) (l : Bool) : (u.release now l).holdTimer = none := by
  rw [Channel.release_holdTimer]
  split
  · next ho => exact h ho
  · rfl

theorem Channel.holdOwned.stopWith (h : u.holdOwned) (now : Nat) (x : StopCause) :
    (u.stopWith now x).holdTimer = none := by
  rw [Channel.stopWith_holdTimer]
  split
  · next ho => exact h ho
  · rfl

theorem Channel.coherent_enterBraking {m : Motion} {b : Brake} (hm : u.motion = some m) (hBridged : u.bridged)
    (ho : u.owner = none) (hh : u.holdTimer = none)
    (hNot : ∀ slot mode goal d, b.followOn ≠ .motion slot mode goal d) : (u.enterBraking now b).coherent := by
  have hRecord : (u.enterBraking now b).motion =
      some { m with runTime := min u.tune.runLimit (u.runElapsed now), braking := some b, pausedFrom := none } := by
    rw [Channel.enterBraking_motion, hm]; rfl
  refine Channel.coherent_braking (by simp) hRecord rfl hNot rfl (by simp) (by simp) ?_ (by simpa using ho)
    (by simpa using hh) (by simp) (by simp) (by simp)
  unfold Channel.enterBraking
  exact Channel.bridged.setBridge (hBridged.congr (by simp) (by simp) (by simp)) ..

/-- A motion that ends through BRAKING leaves its channel in agreement, whatever its hold timer. -/
theorem Channel.coherent_endMotion {m : Motion} (hm : u.motion = some m) (hBridged : u.bridged) (hh : u.holdOwned)
    (x : StopCause) : (u.endMotion now x).coherent := by
  obtain ⟨i, hRecord⟩ := Channel.stopWith_motion_some hm now x
  exact Channel.coherent_enterBraking hRecord (hBridged.congr (by simp) (by simp) (by simp)) (by simp) (hh.stopWith ..)
    (by simp)

theorem Channel.coherent.endMotion (h : u.coherent) (hs : u.mstate ≠ .idle) (now : Nat) (x : StopCause) :
    (u.endMotion now x).coherent :=
  have ⟨_, hm⟩ := h.motion_some hs
  Channel.coherent_endMotion hm h.bridged h.holdOwned x

/-- An incident report brakes the channel toward a reversal (R94). -/
theorem Channel.coherent.takeIncident (h : u.coherent) (hs : u.mstate ≠ .idle) (now : Nat) (x : IncidentCause)
    (ref : Nat) : (u.takeIncident now x ref).coherent := by
  obtain ⟨m, hm⟩ := h.motion_some hs
  unfold Channel.takeIncident
  extract_lets w w'
  have hw : w'.motion = some m ∧ w'.bridged ∧ w'.holdOwned := by
    have hSame : w'.motion = u.motion ∧ w'.bridge = u.bridge ∧ w'.phase = u.phase ∧ w'.stallTimer = u.stallTimer ∧
        w'.owner = u.owner ∧ w'.holdTimer = u.holdTimer := by
      unfold w'; split <;> exact ⟨rfl, rfl, rfl, rfl, rfl, rfl⟩
    obtain ⟨h1, h2, h3, h4, h5, h6⟩ := hSame
    refine ⟨h1.trans hm, h.bridged.congr h2 h3 h4, ?_⟩
    unfold Channel.holdOwned
    rw [h5, h6]
    exact h.holdOwned
  obtain ⟨hm', hBridged, hHold⟩ := hw
  obtain ⟨i, hRecord⟩ := Channel.release_motion_some hm' now true
  have hBraked : (w'.release now true).enterBraking now ⟨.reversal, false⟩ |>.coherent :=
    Channel.coherent_enterBraking hRecord (hBridged.congr (by simp) (by simp) (by simp)) (by simp) (hHold.release ..)
      (by simp)
  have hNot (slot : Slot) (mode : Mode) (goal : Goal) (d : Dir) : FollowOn.reversal ≠ .motion slot mode goal d := by simp
  let y := w'.release now true
  let m' : Motion := { m with
    runTime := min y.tune.runLimit (y.runElapsed now), pausedFrom := none, braking := some ⟨.reversal, false⟩
    mode := .reversal, owner := none, goal := none, incidentRef := some ref, incidentFree := false }
  refine Channel.coherent_braking (by simp) (m := m') (b := ⟨.reversal, false⟩) ?_ rfl hNot rfl (by simp) (by simp)
    hBraked.bridged (by simp) (by simpa using hHold.release now true) (by simp) (by simp) (by simp)
  rw [Channel.mapMotion_motion, Channel.enterBraking_motion, hRecord]
  rfl

theorem Channel.coherent_enterIdle (hBridged : u.bridged) (hh : u.holdOwned) : (u.enterIdle now).coherent := by
  refine Channel.coherent_idle (by simp) (by simp) (by simp) (by simp) ?_ (by simp) ?_ (by simp) (by simp) (by simp)
  · exact (hBridged.congr (by simp) (by simp) (by simp)).setBridge ..
  · rw [Channel.enterIdle_holdTimer]
    split
    · next ho => exact hh ho
    · rfl

theorem Channel.coherent.enterIdle (h : u.coherent) (now : Nat) : (u.enterIdle now).coherent :=
  Channel.coherent_enterIdle h.bridged h.holdOwned

theorem Channel.coherent_dropMotion (hBridged : u.bridged) (hh : u.holdOwned) (x : StopCause) :
    (u.dropMotion now x).coherent :=
  Channel.coherent_enterIdle (hBridged.congr (by simp) (by simp) (by simp)) fun _ => hh.stopWith ..

theorem Channel.coherent.dropMotion (h : u.coherent) (now : Nat) (x : StopCause) : (u.dropMotion now x).coherent :=
  Channel.coherent_dropMotion h.bridged h.holdOwned x

/-! ### Brakes -/

/-- What a BRAKING channel in agreement holds. -/
theorem Channel.coherent.braking (h : u.coherent) (hs : u.mstate = .braking) : ∃ m b, u.motion = some m ∧
    m.braking = some b ∧ m.pausedFrom = none ∧ u.bridge = .brake ∧ u.duty = 0 ∧ u.brakeTimer.isSome = true ∧
    u.ramp = none ∧ u.runSince = none := by
  obtain ⟨m, hm⟩ := h.motion_some (by simp [hs])
  obtain ⟨-, h2, -, -, h5, h6, -, -, h9, h10, h11, -⟩ := h
  simp only [hm, Option.bind_some, hs, MotionState.driving, Channel.bridgeFollows, iff_true] at h2 h5 h6 h9 h10 h11
  obtain ⟨b, hb⟩ := Option.isSome_iff_exists.1 h5
  exact ⟨m, b, hm, hb, by simpa using h6, h2.1, h2.2, h9, by simpa using h10, by simpa using h11⟩

/-- A cancelled follow-on leaves a brake that ends its motion (R101), whatever the hold timer of its owner. -/
theorem Channel.coherent.cancelFollowOn (h : u.coherent) (hs : u.mstate = .braking) {t : Timer}
    (ht : u.owner = none → t = none) (now : Nat) (x : StopCause) :
    (({ u with holdTimer := t }).cancelFollowOn now x).coherent := by
  obtain ⟨m, b, hm, -, hPaused, hBridge, hDuty, hBrake, hRamp, hRun⟩ := h.braking hs
  have hHold : Channel.holdOwned { u with holdTimer := t } := ht
  obtain ⟨i, hRecord⟩ := Channel.release_motion_some (u := { u with holdTimer := t }) hm now
    (decide (x ≠ StopCause.timeout))
  have hNot (slot : Slot) (mode : Mode) (goal : Goal) (d : Dir) : FollowOn.none ≠ .motion slot mode goal d := by simp
  unfold Channel.cancelFollowOn
  refine Channel.coherent_braking (by simpa using hs) (b := ⟨.none, true⟩)
    (m := { { m with owner := i } with braking := some ⟨.none, true⟩ }) ?_ rfl hNot hPaused (by simpa using hBridge)
    (by simpa using hDuty) (h.bridged.congr (by simp) (by simp) (by simp)) (by simp) (by simpa using hHold.release ..)
    (by simpa using hBrake) (by simpa using hRamp) (by simpa using hRun)
  rw [Channel.mapMotion_motion, hRecord]
  rfl

/-! ### The hold line -/

/-- What a driving channel in agreement holds. -/
theorem Channel.coherent.driving (h : u.coherent) (hs : u.mstate.driving = true) : ∃ m, u.motion = some m ∧
    m.braking = none ∧ m.pausedFrom = none ∧ u.bridge = m.dir.bridge ∧ u.brakeTimer = none ∧
    u.runSince.isSome = true := by
  have hNot : u.mstate ≠ .idle ∧ u.mstate ≠ .braking ∧ u.mstate ≠ .paused := by
    refine ⟨?_, ?_, ?_⟩ <;> rintro hx <;> rw [hx] at hs <;> cases hs
  obtain ⟨m, hm⟩ := h.motion_some hNot.1
  obtain ⟨-, h2, -, -, h5, h6, -, -, h9, -, h11, -⟩ := h
  simp only [hm, Option.bind_some, hNot, iff_false, hs, Bool.not_eq_true, Option.isSome_eq_false_iff,
    Option.isNone_iff_eq_none] at h5 h6 h9 h11
  refine ⟨m, hm, h5, h6, ?_, h9, h11⟩
  unfold Channel.bridgeFollows at h2
  cases hx : u.mstate <;> simp only [hx, hm, MotionState.driving, Option.map_some, Option.some.injEq] at h2 hs
  case starting | running | reversing => exact h2
  all_goals cases hs

theorem Channel.coherent.drives_eq (h : u.coherent) : u.drives = u.mstate.driving := by
  by_cases hs : u.mstate.driving = true
  · obtain ⟨m, -, -, -, hb, -⟩ := h.driving hs
    rw [hs, Channel.drives, hb]
    cases m.dir <;> rfl
  · have hBridge := h.bridge
    unfold Channel.bridgeFollows at hBridge
    unfold Channel.drives
    cases hx : u.mstate <;> simp only [hx, MotionState.driving] at hBridge hs ⊢ <;> simp_all [Bridge.dir]

/-- The hold timer goes with an owner whose mode is HOLD. -/
theorem Channel.coherent.hold (h : u.coherent) : u.holdTimer.isSome = true ↔ u.owner.map (·.mode) = some .hold := by
  obtain ⟨-, -, -, -, -, -, -, -, -, -, -, hHold⟩ := h
  exact hHold

/-- An owned motion of a driving channel: the owner is whole in STARTING and RUNNING, and absent in REVERSING. -/
theorem Channel.coherent.owned_driving (h : u.coherent) (hs : u.mstate.driving = true) :
    if u.mstate = .reversing then u.owner = none else u.ownedWhole := by
  have hOwner := h.ownerIs
  unfold Channel.ownerFollows at hOwner
  cases hx : u.mstate <;> simp only [hx, MotionState.driving] at hOwner hs ⊢
  case starting | running | reversing => exact hOwner
  all_goals cases hs

/-- A pause of a driving channel (R104). -/
theorem Channel.coherent.pauseForHold (h : u.coherent) (now : Nat) :
    (u.pauseForHold now).coherent ∧ (u.pauseForHold now).mstate.driving = false ∧
      ((u.pauseForHold now).mstate = .queued ↔ u.mstate = .queued) ∧
      (u.mstate = .idle → (u.pauseForHold now).mstate = .idle) := by
  by_cases hs : u.mstate.driving = true
  · obtain ⟨m, hm, hBrakes, hPausedFrom, hBridge, hBrake, -⟩ := h.driving hs
    have hOwned := h.owned_driving hs
    have hPaused (x : PausedFrom) (hx : match x with
        | .motion => False
        | .starting | .running => u.ownedWhole
        | .reversing | .reversal => u.owner = none) :
        ((({ ((u.mapMotion fun m => { m with holdFree := false }).freezeRun now).mapMotion fun m =>
          { m with pausedFrom := some x } with ramp := none }).setMState .paused).setBridge now .off 0).coherent := by
      let m' : Motion := { m with
        holdFree := false, pausedFrom := some x
        runTime := min u.tune.runLimit ((u.mapMotion fun m => { m with holdFree := false }).runElapsed now) }
      refine Channel.coherent_paused (m := m') (x := x) (by simp) ?_ hBrakes rfl (by simp) (by simp) ?_ ?_ ?_ ?_
        (by simpa using hBrake) (by simp) (by simp)
      · simp [hm, m']
      · exact Channel.bridged.setBridge (h.bridged.congr (by simp) (by simp) (by simp)) ..
      · have hWhole (hx : u.ownedWhole) : Channel.ownedWhole ((({ ((u.mapMotion fun m => { m with holdFree := false
            }).freezeRun now).mapMotion fun m => { m with pausedFrom := some x } with ramp := none }).setMState
            .paused).setBridge now .off 0) := by
          obtain ⟨i, hi, ho⟩ := (Channel.ownedWhole_iff hm).1 hx
          exact (Channel.ownedWhole_iff (m := m') (by simp [hm, m'])).2 ⟨i, hi, by simpa using ho⟩
        cases x with
        | motion => exact hx.elim
        | starting => exact hWhole hx
        | running => exact hWhole hx
        | reversing => simpa using hx
        | reversal => simpa using hx
      · simpa [Channel.ownerGoal] using h.ownerGoal
      · simpa using h.hold
    unfold Channel.pauseForHold
    dsimp only
    cases hx : u.mstate <;> simp only [hx, MotionState.driving, Channel.mapMotion_mstate] at hs ⊢
    case starting | running =>
      simp only [hx, reduceCtorEq, if_false] at hOwned
      exact ⟨hPaused _ hOwned, by simp⟩
    case reversing =>
      simp only [hx, if_true] at hOwned
      exact ⟨hPaused _ hOwned, by simp⟩
    all_goals cases hs
  · have hSame : u.pauseForHold now = u.mapMotion fun m => { m with holdFree := false } := by
      unfold Channel.pauseForHold
      cases hx : u.mstate <;> simp [hx, MotionState.driving] at hs ⊢
    rw [hSame]
    refine ⟨h.congr ?_ (.inr rfl), by simpa using hs, by simp, by simp⟩
    simp only [Channel.drive, Channel.mapMotion_motion, Option.map_map]
    rfl

end

end Sys2Proof.Machine
end

section
/-! PROOFS. Operations that give every channel its turn, in ascending order: what is left when each has had it. -/

namespace Sys2Proof.Machine
/-- One channel's turn: it becomes `x`, it leaves the start queue where `leaves` says so, and its reversal is
reported with the outcome `o`. -/
def State.turn (s : State) (c : Chan) (x : Channel) (leaves : Bool) (o : Option ReversalOutcome) : State :=
  { s.setCh c x with
    startQueue := if leaves then s.startQueue.filter (· ≠ c) else s.startQueue
    incidents := match o with
      | some o => (reportOutcome c o s).incidents
      | none => s.incidents }

/-- What the turns of other channels leave: everything but channels, start queue and incident list. -/
def State.sameRest (s u : State) : Prop :=
  { u with channels := s.channels, startQueue := s.startQueue, incidents := s.incidents } = s

/-- The record is that of the reversal of `c`, which reports an outcome. -/
def reports (O : Chan → Option ReversalOutcome) (s : State) (r : Incident) (c : Chan) : Bool :=
  (O c).isSome && decide ((s.ch c).motion.bind (·.incidentRef) = some r.ref)

/-- The outcome written in one record by the first channel of a list whose reversal it is. -/
def writtenBy (l : List Chan) (O : Chan → Option ReversalOutcome) (s : State) (r : Incident) : Incident :=
  match l.find? (reports O s r) with
  | some c => if r.outcome = none then { r with outcome := (O c).map fun x => (x, (s.ch c).position) } else r
  | none => r

theorem outcomesWritten_eq (o : Chan → Option ReversalOutcome) (s : State) :
    outcomesWritten o s = s.incidents.map (writtenBy Chan.all o s) := by
  unfold outcomesWritten writtenBy
  rfl

section
variable {s u t : State} {c : Chan} {x : Channel} {b : Bool} {o : Option ReversalOutcome} {l : List Chan}
  {f : Chan → State → State} {X : Chan → Channel} {L : Chan → Bool} {O : Chan → Option ReversalOutcome}

theorem State.sameRest.refl (s : State) : s.sameRest s := rfl

theorem State.sameRest.clock (h : s.sameRest u) : u.clock = s.clock := by rw [← h]

theorem State.turn_sameRest (h : s.sameRest u) : s.sameRest (u.turn c x b o) := h

@[simp] theorem State.turn_ch_self : (s.turn c x b o).ch c = x := State.ch_setCh_self s c x

theorem State.turn_ch_ne {d : Chan} (h : d ≠ c) : (s.turn c x b o).ch d = s.ch d := State.ch_setCh_ne s x h

@[simp] theorem State.turn_startQueue : (s.turn c x b o).startQueue =
    if b then s.startQueue.filter (· ≠ c) else s.startQueue := rfl

/-- A turn without effect. -/
theorem State.turn_self (s : State) (c : Chan) : s.turn c (s.ch c) false none = s := by
  unfold State.turn State.setCh State.ch
  rw [PerChan.set_get_self]
  rfl

theorem writtenBy_pos {r : Incident} (h : reports O s r c = true) (l : List Chan) : writtenBy (c :: l) O s r =
    if r.outcome = none then { r with outcome := (O c).map fun x => (x, (s.ch c).position) } else r := by
  have hFind : (c :: l).find? (reports O s r) = some c := List.find?_cons_of_pos h
  simp only [writtenBy, hFind]

theorem writtenBy_neg {r : Incident} (h : reports O s r c ≠ true) (l : List Chan) :
    writtenBy (c :: l) O s r = writtenBy l O s r := by
  have hFind : (c :: l).find? (reports O s r) = l.find? (reports O s r) := List.find?_cons_of_neg h
  simp only [writtenBy, hFind]

theorem writtenBy_nil (O : Chan → Option ReversalOutcome) (s : State) (r : Incident) : writtenBy [] O s r = r := rfl

/-- The first channel of the list whose reversal a record is writes its outcome; the others find it written. -/
theorem writtenBy_cons (c : Chan) (l : List Chan) (O : Chan → Option ReversalOutcome) (s : State) (r : Incident) :
    writtenBy (c :: l) O s r = writtenBy l O s (writtenBy [c] O s r) := by
  by_cases h : reports O s r c = true
  · obtain ⟨x, hx⟩ : ∃ x, O c = some x := Option.isSome_iff_exists.1 (Bool.and_eq_true_iff.1 h).1
    have hKept {r' : Incident} (hr : r'.outcome ≠ none) : writtenBy l O s r' = r' := by
      unfold writtenBy
      split
      · exact if_neg hr
      · rfl
    rw [writtenBy_pos h, writtenBy_pos h, hx, hKept]
    split
    · nofun
    · assumption
  · rw [writtenBy_neg h, writtenBy_neg h, writtenBy_nil]

theorem State.turn_incidents (hCh : u.ch c = s.ch c) (x : Channel) (b : Bool) (O : Chan → Option ReversalOutcome) :
    (u.turn c x b (O c)).incidents = u.incidents.map (writtenBy [c] O s) := by
  unfold State.turn
  cases hO : O c with
  | none =>
    have hId : writtenBy [c] O s = id := by
      funext r; rw [writtenBy_neg (by simp [reports, hO]), writtenBy_nil]; rfl
    simp only [hId, List.map_id]
  | some y =>
    simp only [reportOutcome_incidents, hCh]
    refine List.map_congr_left fun r _ => ?_
    by_cases h : (s.ch c).motion.bind (·.incidentRef) = some r.ref
    · rw [writtenBy_pos (by simp [reports, hO, h])]
      simp [hO, h]
    · rw [writtenBy_neg (by simp [reports, h]), writtenBy_nil]
      simp [h]

/-- The turns of the channels of a list, none of them twice. -/
theorem foldl_turns (hNodup : l.Nodup)
    (hTurn : ∀ c ∈ l, ∀ v, s.sameRest v → v.ch c = s.ch c → f c v = v.turn c (X c) (L c) (O c))
    (hu : s.sameRest u) (hCh : ∀ c ∈ l, u.ch c = s.ch c) (ht : t = l.foldl (fun v c => f c v) u) :
    (∀ c, t.ch c = if c ∈ l then X c else u.ch c) ∧
    t.startQueue = u.startQueue.filter (fun c => !(decide (c ∈ l) && L c)) ∧
    t.incidents = u.incidents.map (writtenBy l O s) ∧ s.sameRest t := by
  induction l generalizing u with
  | nil =>
    have hId : writtenBy [] O s = id := by funext r; exact writtenBy_nil O s r
    subst ht
    simp [hId, hu]
  | cons c l ih =>
    obtain ⟨hNew, hNodup⟩ := List.nodup_cons.1 hNodup
    have hStep := hTurn c (List.mem_cons_self ..) u hu (hCh c (List.mem_cons_self ..))
    have hKept {d : Chan} (hd : d ∈ l) : d ≠ c := fun h => hNew (h ▸ hd)
    rw [List.foldl_cons, hStep] at ht
    obtain ⟨hAll, hQueue, hList, hRest⟩ := ih hNodup (fun d hd => hTurn d (List.mem_cons_of_mem c hd))
      (State.turn_sameRest hu)
      (fun d hd => (State.turn_ch_ne (hKept hd)).trans (hCh d (List.mem_cons_of_mem c hd))) ht
    refine ⟨fun d => ?_, ?_, ?_, hRest⟩
    · rw [hAll]
      by_cases hd : d = c
      · subst hd; simp [hNew]
      · simp [hd, State.turn_ch_ne hd]
    · rw [hQueue, State.turn_startQueue]
      cases hL : L c with
      | true =>
        simp only [if_true, List.filter_filter]
        refine List.filter_congr fun d _ => ?_
        by_cases hd : d = c
        · subst hd; simp [hNew, hL]
        · simp [hd]
      | false =>
        simp only [Bool.false_eq_true, if_false]
        refine List.filter_congr fun d _ => ?_
        by_cases hd : d = c
        · subst hd; simp [hNew, hL]
        · simp [hd]
    · rw [hList, State.turn_incidents (s := s) (hCh c (List.mem_cons_self ..)), List.map_map]
      exact List.map_congr_left fun r _ => (writtenBy_cons c l O s r).symm

/-- Every channel has had its turn. -/
theorem forChans_turns (hTurn : ∀ c v, s.sameRest v → v.ch c = s.ch c → f c v = v.turn c (X c) (L c) (O c)) :
    forChans f s = { s with
      channels := PerChan.ofFn X, startQueue := s.startQueue.filter (fun c => !L c)
      incidents := outcomesWritten O s } := by
  have hNodup : Chan.all.Nodup := by decide
  obtain ⟨hAll, hQueue, hList, hRest⟩ := foldl_turns hNodup (fun c _ v => hTurn c v) (State.sameRest.refl s)
    (fun _ _ => rfl) (t := forChans f s) rfl
  have hChannels : (forChans f s).channels = PerChan.ofFn X := PerChan.ext_get fun c => by
    rw [PerChan.get_ofFn]; exact (hAll c).trans (if_pos (Chan.mem_all c))
  simp only [Chan.mem_all, decide_true, Bool.true_and] at hQueue
  rw [outcomesWritten_eq, ← hList, ← hQueue, ← hChannels]
  generalize forChans f s = t at hRest
  unfold State.sameRest at hRest
  rw [← hRest]

end

/-! ### A stop request as the turn of its channel (R97 to R101, R103) -/

/-- A reversal ended with a cause. -/
def Channel.cutReversal (now : Nat) (cause : StopCause) (u : Channel) : Channel :=
  ({ u with stopCause := cause }).enterBraking now ⟨.none, true⟩

/-- What a stop request makes of a channel. -/
def Channel.stopped (now : Nat) (cause : StopCause) (u : Channel) : Channel :=
  match u.mstate with
  | .idle => u
  | .queued => u.dropMotion now cause
  | .starting | .running => u.endMotion now cause
  | .reversing => if cause.stopsAll then u.cutReversal now cause else u
  | .paused =>
    match u.motion.bind (·.pausedFrom) with
    | some .reversing | some .reversal => if cause.stopsAll then u.cutReversal now cause else u
    | _ => u.endMotion now cause
  | .braking =>
    match u.motion.bind (·.braking) with
    | some ⟨.reversal, _⟩ => if cause.stopsAll then u.cancelFollowOn now cause else u
    | some ⟨.motion _ _ _ _, _⟩ => u.cancelFollowOn now cause
    | _ => u

/-- The outcome that a stop request gives the reversal of a channel. -/
def Channel.stopReport (cause : StopCause) (u : Channel) : Option ReversalOutcome :=
  if cause.stopsAll then
    match u.mstate with
    | .reversing => some (stopOutcome cause true)
    | .paused =>
      match u.motion.bind (·.pausedFrom) with
      | some .reversing => some (stopOutcome cause true)
      | some .reversal => some (stopOutcome cause false)
      | _ => none
    | .braking =>
      match u.motion.bind (·.braking) with
      | some ⟨.reversal, _⟩ => some (stopOutcome cause false)
      | _ => none
    | _ => none
  else none

theorem stopRequest_turn (c : Chan) (cause : StopCause) (s : State) : stopRequest c cause s =
    s.turn c ((s.ch c).stopped s.clock cause) (decide ((s.ch c).mstate = .queued)) ((s.ch c).stopReport cause) := by
  have hEnd (o : ReversalOutcome) : endReversal c (some cause) o s =
      s.turn c ((s.ch c).cutReversal s.clock cause) false (some o) := by
    rw [endReversal_eq]; rfl
  have hCancel (o : ReversalOutcome) : (reportOutcome c o s).modCh c (·.cancelFollowOn s.clock cause) =
      s.turn c ((s.ch c).cancelFollowOn s.clock cause) false (some o) := by
    rw [reportOutcome_eq]; rfl
  unfold stopRequest Channel.stopped Channel.stopReport
  cases hState : (s.ch c).mstate with
  | idle => simp [hState, State.turn_self]
  | queued => simp [hState]; rfl
  | starting => simp [hState]; rfl
  | running => simp [hState]; rfl
  | reversing =>
    cases hAll : cause.stopsAll <;> simp [hState, hEnd, State.turn_self]
  | paused =>
    cases hAll : cause.stopsAll <;> cases hPaused : (s.ch c).motion.bind (·.pausedFrom) with
    | none => simp [hState, hPaused]; rfl
    | some x => cases x <;> simp [hState, hPaused, hEnd, State.turn_self] <;> rfl
  | braking =>
    cases hAll : cause.stopsAll <;> cases hBraking : (s.ch c).motion.bind (·.braking) with
    | none => simp [hState, hBraking, State.turn_self]
    | some b =>
      obtain ⟨f, e⟩ := b
      cases f <;> simp [hState, hBraking, hCancel, State.turn_self] <;> rfl

end Sys2Proof.Machine
end

section
/-! PROOFS. Battery samples, bands and the stop requests that reach several channels (R97 to R103, R137 to R141). -/

namespace Sys2Proof.Machine
/-- No channel reports an outcome. -/
theorem outcomesWritten_none (s : State) : outcomesWritten (fun _ => none) s = s.incidents := by
  have hId : writtenBy Chan.all (fun _ => none) s = id := by
    funext r
    have hFind : Chan.all.find? (reports (fun _ => none) s r) = none := List.find?_eq_none.2 fun _ _ => by simp [reports]
    simp only [writtenBy, hFind, id_eq]
  rw [outcomesWritten_eq, hId, List.map_id]

/-- Stop requests for the channels that `p` picks. -/
theorem forChans_stops (p : Chan → Channel → Bool) (cause : StopCause) (s : State) :
    forChans (fun c s => if p c (s.ch c) then stopRequest c cause s else s) s = { s with
      channels := PerChan.ofFn fun c => if p c (s.ch c) then (s.ch c).stopped s.clock cause else s.ch c
      startQueue := s.startQueue.filter fun c => !(p c (s.ch c) && decide ((s.ch c).mstate = .queued))
      incidents := outcomesWritten (fun c => if p c (s.ch c) then (s.ch c).stopReport cause else none) s } := by
  refine forChans_turns fun c v hRest hCh => ?_
  rw [stopRequest_turn, hCh, hRest.clock]
  cases hp : p c (s.ch c) with
  | true => simp only [if_true, Bool.true_and]
  | false =>
    simp only [Bool.false_eq_true, if_false, Bool.false_and]
    rw [← hCh]
    exact (State.turn_self v c).symm

/-! ### A reversal that is cut and a follow-on that is cancelled (R97, R101) -/

section
variable (u : Channel) (now : Nat) (x : StopCause)
@[simp] theorem Channel.cutReversal_mstate : (u.cutReversal now x).mstate = .braking := by
  simp [Channel.cutReversal]
@[simp] theorem Channel.cutReversal_bridge : (u.cutReversal now x).bridge = .brake := by
  simp [Channel.cutReversal]
@[simp] theorem Channel.cutReversal_position : (u.cutReversal now x).position = u.position := by
  simp [Channel.cutReversal]
@[simp] theorem Channel.cutReversal_datum : (u.cutReversal now x).datum = u.datum := by
  simp [Channel.cutReversal]
@[simp] theorem Channel.cutReversal_stopCause : (u.cutReversal now x).stopCause = x := by
  simp [Channel.cutReversal]
@[simp] theorem Channel.cutReversal_owner : (u.cutReversal now x).owner = u.owner := by
  simp [Channel.cutReversal]
@[simp] theorem Channel.cutReversal_brakeTimer : (u.cutReversal now x).brakeTimer = some (now / Config.usPerMs + u.tune.brake) := by
  simp [Channel.cutReversal]
@[simp] theorem Channel.cancelFollowOn_mstate : (u.cancelFollowOn now x).mstate = u.mstate := by
  simp [Channel.cancelFollowOn, Channel.mapMotion]
@[simp] theorem Channel.cancelFollowOn_bridge : (u.cancelFollowOn now x).bridge = u.bridge := by
  simp [Channel.cancelFollowOn, Channel.mapMotion]
@[simp] theorem Channel.cancelFollowOn_position : (u.cancelFollowOn now x).position = u.position := by
  simp [Channel.cancelFollowOn, Channel.mapMotion]
@[simp] theorem Channel.cancelFollowOn_datum : (u.cancelFollowOn now x).datum = u.datum := by
  simp [Channel.cancelFollowOn, Channel.mapMotion]
@[simp] theorem Channel.cancelFollowOn_stopCause : (u.cancelFollowOn now x).stopCause = x := by
  simp [Channel.cancelFollowOn, Channel.mapMotion]
@[simp] theorem Channel.cancelFollowOn_owner : (u.cancelFollowOn now x).owner = none := by
  simp [Channel.cancelFollowOn, Channel.mapMotion]
@[simp] theorem Channel.cancelFollowOn_brakeTimer : (u.cancelFollowOn now x).brakeTimer = u.brakeTimer := by
  simp [Channel.cancelFollowOn, Channel.mapMotion]
end

/-- What a stop request makes of every channel it reaches: its position stays. -/
@[simp] theorem Channel.stopped_position (u : Channel) (now : Nat) (cause : StopCause) :
    (u.stopped now cause).position = u.position := by
  unfold Channel.stopped
  cases hState : u.mstate with
  | idle => rfl
  | queued => simp
  | starting => simp
  | running => simp
  | reversing => cases hAll : cause.stopsAll <;> simp
  | paused =>
    cases hAll : cause.stopsAll <;> cases hPaused : u.motion.bind (·.pausedFrom) with
    | none => simp
    | some x => cases x <;> simp
  | braking =>
    cases hAll : cause.stopsAll <;> cases hBraking : u.motion.bind (·.braking) with
    | none => simp
    | some b =>
      obtain ⟨f, e⟩ := b
      cases f <;> simp

section
variable {u : Channel} {now : Nat} {cause : StopCause} {o : Owner}

/-- An owned channel that a master-motion stop reaches (R99, R100, R101, R103). -/
theorem Channel.coherent.stopped_owned (h : u.coherent) (hOwner : u.owner = some o) (now : Nat) (cause : StopCause) :
    (u.stopped now cause).owner = none ∧ (u.stopped now cause).stopCause = cause ∧
    (u.stopped now cause).mstate = (if u.mstate = .queued then .idle else .braking) := by
  have hFollows := h.ownerIs
  unfold Channel.ownerFollows at hFollows
  unfold Channel.stopped
  cases hState : u.mstate with
  | idle => simp [hState, hOwner] at hFollows
  | queued => simp
  | starting => simp
  | running => simp
  | reversing => simp [hState, hOwner] at hFollows
  | paused =>
    have hMaster : u.motion.bind (·.pausedFrom) ≠ some .reversing ∧ u.motion.bind (·.pausedFrom) ≠ some .reversal := by
      constructor <;> intro hPaused <;> simp [hState, hPaused, Channel.pausedMaster, hOwner] at hFollows
    cases hPaused : u.motion.bind (·.pausedFrom) with
    | none => simp
    | some x => cases x <;> simp_all
  | braking =>
    cases hBraking : u.motion.bind (·.braking) with
    | none => simp [hState, hBraking, hOwner] at hFollows
    | some b =>
      obtain ⟨f, e⟩ := b
      cases f with
      | none => simp [hState, hBraking, hOwner] at hFollows
      | reversal => simp [hState, hBraking, hOwner] at hFollows
      | motion slot mode goal d => simp [hState]

end

end Sys2Proof.Machine
end

section
/-! PROOFS. STOP, LOCKOUT and the bands of the supply: the stops that reach several channels. -/

namespace Sys2Proof.Machine
section
variable {s t : State} {c : Chan} {u : Channel} {now : Nat} {X : Chan → Channel} {q : List Chan} {l : List Incident}

/-- The part at the end of a step that gave every channel a turn. -/
theorem flush_turned (hs : s.noneDue) (ht : t = flush { s with
      channels := PerChan.ofFn X, startQueue := q, incidents := l }) :
    (∀ c, t.ch c = { X c with statusDue := false }) ∧ (∀ c, X c = s.ch c → t.ch c = s.ch c) ∧
    t.startQueue = q ∧ t.incidents = l ∧
    { t with channels := s.channels, txQueue := s.txQueue, startQueue := s.startQueue, incidents := s.incidents } = s := by
  have hCh (c : Chan) : t.ch c = { X c with statusDue := false } := by
    rw [ht, flush_ch]
    exact congrArg (fun x : Channel => { x with statusDue := false }) (PerChan.get_ofFn X c)
  refine ⟨hCh, fun c hX => ?_, by rw [ht, flush_rest], by rw [ht, flush_rest], by rw [ht, flush_rest]⟩
  rw [hCh, hX]
  exact Channel.unmarked (hs.due c)

/-- A stop of every motion leaves no channel driving or owned (R97, R98, R100, R101, R103). -/
theorem Channel.coherent.stopped_unowned {cause : StopCause} (h : u.coherent) (hAll : cause.stopsAll = true) (now : Nat) :
    (u.stopped now cause).owner = none ∧ (u.stopped now cause).drives = false := by
  have hFollows := h.ownerIs
  have hBridge := h.bridge
  unfold Channel.ownerFollows at hFollows
  unfold Channel.bridgeFollows at hBridge
  unfold Channel.stopped Channel.drives
  cases hState : u.mstate with
  | idle =>
    simp only [hState] at hFollows hBridge
    simp [hFollows, hBridge, Bridge.dir]
  | queued => simp [Bridge.dir]
  | starting => simp [Bridge.dir]
  | running => simp [Bridge.dir]
  | reversing =>
    simp only [hState] at hFollows
    simp [hAll, hFollows, Bridge.dir]
  | paused =>
    cases hPaused : u.motion.bind (·.pausedFrom) with
    | none => simp [Bridge.dir]
    | some x => cases x <;> simp [hAll, hState, hPaused, Channel.pausedMaster, Bridge.dir] at hFollows ⊢ <;> assumption
  | braking =>
    simp only [hState] at hBridge
    cases hBraking : u.motion.bind (·.braking) with
    | none => simp [hState, hBraking] at hFollows; simp [hFollows, hBridge, Bridge.dir]
    | some b =>
      obtain ⟨f, e⟩ := b
      cases f <;> simp [hState, hBraking] at hFollows <;> simp [hAll, hFollows, hBridge, Bridge.dir]

theorem Channel.stopped_datum {cause : StopCause} (h : u.datum ≠ .seeking) (now : Nat) :
    (u.stopped now cause).datum = u.datum := by
  have hEnd : (u.endMotion now cause).datum = u.datum := by
    rw [Channel.endMotion_datum, if_neg fun hc => h hc.1]
  have hDrop : (u.dropMotion now cause).datum = u.datum := by
    rw [Channel.dropMotion_datum, if_neg fun hc => h hc.1]
  unfold Channel.stopped
  cases hState : u.mstate with
  | idle => rfl
  | queued => exact hDrop
  | starting => exact hEnd
  | running => exact hEnd
  | reversing => cases hAll : cause.stopsAll <;> simp
  | paused =>
    cases hAll : cause.stopsAll <;> cases hPaused : u.motion.bind (·.pausedFrom) with
    | none => exact hEnd
    | some x => cases x <;> simp [hEnd]
  | braking =>
    cases hAll : cause.stopsAll <;> cases hBraking : u.motion.bind (·.braking) with
    | none => rfl
    | some b =>
      obtain ⟨f, e⟩ := b
      cases f <;> simp

/-- A motion that is paused or drives ends through BRAKING at a stop of every motion (R97, R100). -/
theorem Channel.coherent.stopped_brakes {cause : StopCause} (h : u.coherent) (hAll : cause.stopsAll = true)
    (hState : u.mstate = .starting ∨ u.mstate = .running ∨ u.mstate = .reversing ∨ u.mstate = .paused) :
    (u.stopped now cause).mstate = .braking ∧ (u.stopped now cause).stopCause = cause ∧
    (u.stopped now cause).bridge = .brake ∧
    (u.stopped now cause).motion.bind (·.braking) = some ⟨.none, true⟩ ∧
    (u.stopped now cause).brakeTimer = some (now / 1000 + u.tune.brake) := by
  have hSome : u.motion ≠ none := by
    rw [Ne, h.motion_none]
    obtain h | h | h | h := hState <;> rw [h] <;> nofun
  obtain ⟨m, hMotion⟩ := Option.ne_none_iff_exists'.1 hSome
  have hEnd : (u.endMotion now cause).motion.bind (·.braking) = some ⟨.none, true⟩ := Channel.endMotion_braking hSome now cause
  have hCut : (u.cutReversal now cause).motion.bind (·.braking) = some ⟨.none, true⟩ := by
    rw [Channel.cutReversal, Channel.enterBraking_motion]
    simp [hMotion]
  have hEither : u.stopped now cause = u.endMotion now cause ∨ u.stopped now cause = u.cutReversal now cause := by
    unfold Channel.stopped
    obtain h | h | h | h := hState <;> simp only [h, hAll, if_true, true_or, or_true]
    cases hPaused : u.motion.bind (·.pausedFrom) with
    | none => exact .inl rfl
    | some x => cases x <;> simp
  obtain hTo | hTo := hEither <;> rw [hTo] <;> simp [hEnd, hCut, Config.usPerMs]

/-- A brake at a STOP: one that ends nothing on is left alone, another loses its follow-on (R101). -/
theorem Channel.coherent.stopped_braking (h : u.coherent) (hState : u.mstate = .braking) :
    (u.stopped now .stop).mstate = .braking ∧ (u.stopped now .stop).bridge = .brake ∧
    (u.stopped now .stop).brakeTimer = u.brakeTimer ∧
    if (u.motion.bind (·.braking)).map (·.followOn) = some .none then u.stopped now .stop = u
    else (u.stopped now .stop).motion.bind (·.braking) = some ⟨.none, true⟩ ∧ (u.stopped now .stop).stopCause = .stop := by
  obtain ⟨m, b, hMotion, hBraking, -, hBridge, -⟩ := h.braking hState
  obtain ⟨f, e⟩ := b
  have hCancel : (u.cancelFollowOn now .stop).motion.bind (·.braking) = some ⟨.none, true⟩ := by
    obtain ⟨i, hReleased⟩ := Channel.release_motion_some hMotion now (decide (StopCause.stop ≠ StopCause.timeout))
    simp only [Channel.cancelFollowOn, Channel.mapMotion, hReleased, Option.map_some, Option.bind_some]
  have hAll : StopCause.stop.stopsAll = true := rfl
  unfold Channel.stopped
  cases f <;> simp [hState, hMotion, hBraking, hBridge, hAll, hCancel]

end

/-- What a STOP asks of one channel: `v` comes of `u` (R97, R98, R100, R101, R103). -/
theorem Channel.coherent.stopped_all {u : Channel} (h : u.coherent) {now : Nat} {v : Channel}
    (hv : v = { u.stopped now .stop with statusDue := false }) (hDue : u.statusDue = false) :
    v.owner = none ∧ v.drives = false ∧
    (match u.mstate with
      | .idle => v = u
      | .queued => v.mstate = .idle ∧ v.stopCause = .stop ∧ v.motion = none
      | .braking => v.mstate = .braking ∧ v.bridge = .brake ∧ v.brakeTimer = u.brakeTimer ∧
          (if (u.motion.bind (·.braking)).map (·.followOn) = some .none then v = u
          else v.motion.bind (·.braking) = some ⟨.none, true⟩ ∧ v.stopCause = .stop)
      | _ => v.mstate = .braking ∧ v.stopCause = .stop ∧ v.bridge = .brake ∧
          v.motion.bind (·.braking) = some ⟨.none, true⟩ ∧ v.brakeTimer = some (now / 1000 + u.tune.brake)) ∧
    v.position = u.position ∧ v.datum = (if u.datum = .seeking then v.datum else u.datum) := by
  obtain ⟨hOwner, hDrives⟩ := h.stopped_unowned (cause := .stop) rfl now
  subst hv
  refine ⟨hOwner, hDrives, ?_, u.stopped_position now .stop, ?_⟩
  · cases hState : u.mstate with
    | idle =>
      have hSame : u.stopped now .stop = u := by unfold Channel.stopped; simp only [hState]
      simp only [hSame]
      exact Channel.unmarked hDue
    | queued =>
      have hDrop : u.stopped now .stop = u.dropMotion now .stop := by unfold Channel.stopped; simp only [hState]
      simp [hDrop]
    | braking =>
      obtain ⟨hTo, hBridge, hTimer, hFollow⟩ := h.stopped_braking (now := now) hState
      refine ⟨hTo, hBridge, hTimer, ?_⟩
      split
      · next hNone =>
        rw [if_pos hNone] at hFollow
        rw [hFollow]
        exact Channel.unmarked hDue
      · next hNone =>
        rw [if_neg hNone] at hFollow
        exact hFollow
    | starting => exact h.stopped_brakes rfl (.inl hState)
    | running => exact h.stopped_brakes rfl (.inr (.inl hState))
    | reversing => exact h.stopped_brakes rfl (.inr (.inr (.inl hState)))
    | paused => exact h.stopped_brakes rfl (.inr (.inr (.inr hState)))
  · split
    · rfl
    · next hSeek => exact Channel.stopped_datum hSeek now

/-- The outcome that a STOP reports: CUT for a reversal that has driven, NONE for one that has not (R97). -/
theorem Channel.stopReport_stop (u : Channel) : u.stopReport .stop =
    match u.mstate with
    | .reversing => some .cut
    | .paused =>
      if u.motion.bind (·.pausedFrom) = some .reversing then some .cut
      else if u.motion.bind (·.pausedFrom) = some .reversal then some .none
      else none
    | .braking =>
      if (u.motion.bind (·.braking)).map (·.followOn) = some .reversal then some .none else none
    | _ => none := by
  have hAll : StopCause.stop.stopsAll = true := rfl
  have hOutcome (b : Bool) : stopOutcome .stop b = if b then .cut else .none := rfl
  simp only [Channel.stopReport, hAll, hOutcome, if_true]
  cases hState : u.mstate with
  | paused =>
    cases hPaused : u.motion.bind (·.pausedFrom) with
    | none => rfl
    | some x => cases x <;> rfl
  | braking =>
    cases hBraking : u.motion.bind (·.braking) with
    | none => rfl
    | some b =>
      obtain ⟨f, e⟩ := b
      cases f <;> rfl
  | _ => rfl

/-- Settles O46: a STOP is one stop request for each channel of its mask. -/
theorem stopStopsTheMask : Obligations.StopStopsTheMask := by
  intro s r rest hs hCoherent hUrgent
  have hExec : exec .stop s = execStop s := rfl
  have hStops := forChans_stops (fun c _ => inMask r.mask.toNat c) .stop { s with urgent := rest }
  have hNone : State.noneDue { s with urgent := rest } := hs
  rw [execStop, hUrgent] at hExec
  obtain ⟨hCh, hKept, hQueue, hList, hFrame⟩ := flush_turned hNone (congrArg flush hStops)
  refine ⟨_, hExec, ?urgent, fun c => ?channel, ?queue, fun e he hTag => ?answers, ?list, ?frame⟩
  case urgent => rw [flush_rest, stopMask, hStops]
  case channel =>
    have hCh' := hCh c
    dsimp only
    split
    case isTrue hMask =>
      rw [if_pos hMask] at hCh'
      exact (hCoherent.1 c (Chan.mem_all c)).stopped_all hCh' (hs.due c)
    case isFalse hMask => exact hKept c (if_neg hMask)
  case queue =>
    refine hQueue.trans (List.filter_congr fun c hc => ?_)
    have hQueued : (s.ch c).mstate = .queued := (hCoherent.2.2.1 c (Chan.mem_all c)).1 hc
    simp [State.ch] at hQueued ⊢
    simp [hQueued]
  case answers =>
    have hHere := (mem_flush_of_ne fun c => by rw [hTag]; nofun).1 he
    rw [stopMask, hStops] at hHere
    exact hHere
  case list =>
    refine hList.trans (congrArg (outcomesWritten · s) (funext fun c => ?_))
    dsimp only
    cases hMask : inMask r.mask.toNat c with
    | false => rfl
    | true => exact Channel.stopReport_stop (s.ch c)
  case frame => rw [flush_rest, stopMask, hStops]

end Sys2Proof.Machine
end

section
/-! PROOFS. LOCKOUT (R113, R114, R115). -/

namespace Sys2Proof.Machine
/-- The allowed slots with those of a mask set to a value. -/
def allowMasked (slots : Nat) (b : Bool) (a : PerSlot Bool) : PerSlot Bool :=
  Slot.all.foldl (fun a i => if inSlotMask slots i then a.set i b else a) a

theorem allowMasked_get (slots : Nat) (b : Bool) (a : PerSlot Bool) (i : Slot) :
    (allowMasked slots b a).get i = if inSlotMask slots i then b else a.get i := by
  have hStep (a : PerSlot Bool) (j : Slot) : (if inSlotMask slots j then a.set j b else a).get i =
      if j = i ∧ inSlotMask slots i then b else a.get i := by
    by_cases hj : j = i
    · subst hj; by_cases hm : inSlotMask slots j = true <;> simp [hm]
    · by_cases hm : inSlotMask slots j = true <;> simp [hm, hj, Ne.symm hj]
  simp only [allowMasked, Slot.all, List.foldl_cons, List.foldl_nil, hStep]
  cases i <;> simp

section
variable {s : State} {c : Chan} {u : Channel}

@[simp] theorem Channel.cutReversal_allowed (u : Channel) (now : Nat) (x : StopCause) :
    (u.cutReversal now x).allowed = u.allowed := by simp [Channel.cutReversal]

@[simp] theorem Channel.cancelFollowOn_allowed (u : Channel) (now : Nat) (x : StopCause) :
    (u.cancelFollowOn now x).allowed = u.allowed := by simp [Channel.cancelFollowOn, Channel.mapMotion]

@[simp] theorem Channel.stopped_allowed (u : Channel) (now : Nat) (cause : StopCause) :
    (u.stopped now cause).allowed = u.allowed := by
  unfold Channel.stopped
  cases hState : u.mstate with
  | idle => rfl
  | queued => simp
  | starting => simp
  | running => simp
  | reversing => cases hAll : cause.stopsAll <;> simp
  | paused =>
    cases hAll : cause.stopsAll <;> cases hPaused : u.motion.bind (·.pausedFrom) with
    | none => simp
    | some x => cases x <;> simp
  | braking =>
    cases hAll : cause.stopsAll <;> cases hBraking : u.motion.bind (·.braking) with
    | none => simp
    | some b =>
      obtain ⟨f, e⟩ := b
      cases f <;> simp

/-- The owner of a channel is among the slots of a mask and still allowed. -/
def Channel.lockedOut (slots : Nat) (u : Channel) : Bool :=
  match u.owner with
  | some o => inSlotMask slots o.slot && u.allowed.get o.slot
  | none => false

theorem Channel.lockedOut_iff {slots : Nat} : u.lockedOut slots = true ↔
    ∃ o ∈ u.owner, inSlotMask slots o.slot = true ∧ u.allowed.get o.slot = true := by
  unfold Channel.lockedOut
  cases u.owner <;> simp

/-- The channel with the slots of a mask locked out or allowed. -/
def Channel.allow (slots : Nat) (b : Bool) (u : Channel) : Channel := { u with allowed := allowMasked slots b u.allowed }

/-- One channel of a SET as a turn. -/
theorem lockChannel_turn (slots : Nat) (c : Chan) (s : State) : lockChannel slots c s =
    s.turn c (if (s.ch c).lockedOut slots then ((s.ch c).allow slots false).stopped s.clock .lockout
        else (s.ch c).allow slots false)
      ((s.ch c).lockedOut slots && decide ((s.ch c).mstate = .queued)) none := by
  have hMod : (s.modCh c fun ch =>
      { ch with allowed := Slot.all.foldl (fun a i => if inSlotMask slots i then a.set i false else a) ch.allowed }) =
        s.setCh c ((s.ch c).allow slots false) := rfl
  have hReport (u : Channel) : u.stopReport .lockout = none := rfl
  change (if (s.ch c).lockedOut slots = true then stopRequest c .lockout _ else _) = _
  rw [hMod]
  cases hOut : (s.ch c).lockedOut slots with
  | false => rfl
  | true =>
    simp only [if_true, Bool.true_and]
    rw [stopRequest_turn, State.ch_setCh_self, hReport]
    simp only [State.turn, setCh_setCh]
    rfl

end

/-- What the handling of a LOCKOUT makes of each channel. -/
def State.lockout (s : State) (d : List Byte) (c : Chan) : Channel :=
  if inMask (byteAt d 1) c then
    if byteAt d 3 = 0 then
      if (s.ch c).lockedOut (byteAt d 2) then ((s.ch c).allow (byteAt d 2) false).stopped s.clock .lockout
      else (s.ch c).allow (byteAt d 2) false
    else (s.ch c).allow (byteAt d 2) true
  else s.ch c

/-- The channel leaves the start queue: its owner is removed while it is QUEUED. -/
def State.lockoutLeaves (s : State) (d : List Byte) (c : Chan) : Bool :=
  decide (byteAt d 3 = 0) && inMask (byteAt d 1) c && (s.ch c).lockedOut (byteAt d 2) &&
    decide ((s.ch c).mstate = .queued)

theorem handleLockout_eq {s : State} {d : List Byte} (slot : Slot) (h : byteAt d 3 = 0 ∨ byteAt d 3 = 1) :
    handleLockout slot d s = ({ s with
      channels := PerChan.ofFn fun c => s.lockout d c
      startQueue := s.startQueue.filter fun c => !s.lockoutLeaves d c },
      .answer .accepted [byteAt d 1, byteAt d 2]) := by
  have hTurns (f : Nat → Chan → State → State) (X : Chan → Channel) (L : Chan → Bool)
      (hTurn : ∀ c v, s.sameRest v → v.ch c = s.ch c → f (byteAt d 2) c v = v.turn c (X c) (L c) none) :
      forChans (fun c s => if inMask (byteAt d 1) c then f (byteAt d 2) c s else s) s = { s with
        channels := PerChan.ofFn fun c => if inMask (byteAt d 1) c then X c else s.ch c
        startQueue := s.startQueue.filter fun c => !(inMask (byteAt d 1) c && L c) } := by
    rw [forChans_turns (X := fun c => if inMask (byteAt d 1) c then X c else s.ch c)
      (L := fun c => inMask (byteAt d 1) c && L c) (O := fun _ => none) fun c v hRest hCh => ?_, outcomesWritten_none]
    cases hMask : inMask (byteAt d 1) c with
    | true => simpa using hTurn c v hRest hCh
    | false => rw [← hCh]; exact (State.turn_self v c).symm
  obtain h | h := h
  · have hLock := hTurns lockChannel (fun c => if (s.ch c).lockedOut (byteAt d 2) then
        ((s.ch c).allow (byteAt d 2) false).stopped s.clock .lockout else (s.ch c).allow (byteAt d 2) false)
      (fun c => (s.ch c).lockedOut (byteAt d 2) && decide ((s.ch c).mstate = .queued))
      fun c v hRest hCh => by rw [lockChannel_turn, hCh, hRest.clock]
    simp only [handleLockout, h, hLock, State.lockout, State.lockoutLeaves, if_true, decide_true, Bool.true_and, Bool.and_assoc]
  · have hUnlock := hTurns unlockChannel (fun c => (s.ch c).allow (byteAt d 2) true) (fun _ => false)
      fun c v hRest hCh => by rw [← hCh]; rfl
    simp only [handleLockout, h, hUnlock, State.lockout, State.lockoutLeaves]
    simp

section
variable {s : State} {d : List Byte} {c : Chan}

/-- The owner that a SET removes. -/
def State.unseats (s : State) (d : List Byte) (c : Chan) : Prop :=
  byteAt d 3 = 0 ∧ inMask (byteAt d 1) c = true ∧ (s.ch c).lockedOut (byteAt d 2) = true

theorem State.lockout_allowed (i : Slot) : (s.lockout d c).allowed.get i =
    if inMask (byteAt d 1) c && inSlotMask (byteAt d 2) i then decide (byteAt d 3 ≠ 0)
    else (s.ch c).allowed.get i := by
  unfold State.lockout
  cases hMask : inMask (byteAt d 1) c <;> simp only [Bool.false_eq_true, if_false, if_true, Bool.true_and, Bool.false_and]
  by_cases hSet : byteAt d 3 = 0
  · rw [if_pos hSet]
    split <;> simp [Channel.allow, allowMasked_get, hSet]
  · rw [if_neg hSet]
    simp [Channel.allow, allowMasked_get, hSet]

theorem State.lockout_unseated (hCoherent : (s.ch c).coherent) (h : s.unseats d c) :
    (s.lockout d c).owner = none ∧ (s.lockout d c).stopCause = .lockout ∧
    (s.lockout d c).mstate = if (s.ch c).mstate = .queued then .idle else .braking := by
  obtain ⟨hSet, hMask, hOut⟩ := h
  obtain ⟨o, hOwner, -⟩ := Channel.lockedOut_iff.1 hOut
  have hAllow : ((s.ch c).allow (byteAt d 2) false).coherent := hCoherent.congr rfl (.inr rfl)
  simp only [State.lockout, hMask, hSet, hOut, if_true]
  exact hAllow.stopped_owned hOwner s.clock .lockout

theorem State.lockout_seated (h : ¬s.unseats d c) :
    { s.lockout d c with allowed := (s.ch c).allowed } = s.ch c := by
  unfold State.lockout
  split
  case isTrue hMask =>
    split
    case isTrue hSet => rw [if_neg fun hOut => h ⟨hSet, hMask, hOut⟩]; rfl
    case isFalse => rfl
  case isFalse => rfl

theorem State.unseats_iff : s.unseats d c ↔ byteAt d 3 = 0 ∧ inMask (byteAt d 1) c = true ∧
    ∃ o ∈ (s.ch c).owner, inSlotMask (byteAt d 2) o.slot = true ∧ (s.ch c).allowed.get o.slot = true := by
  rw [State.unseats, Channel.lockedOut_iff]

end

/-- Settles O45: a LOCKOUT is one change of the map for each channel of its mask, a SET with a stop request for the
owner it removes. -/
theorem lockoutChangesTheMap : Obligations.LockoutChangesTheMap := by
  intro s slot b rest hs hCoherent hTakes hAction
  have hExec := exec_lockout hTakes
  rw [State.taken_of_free (by decide), handleLockout_eq slot hAction] at hExec
  generalize ht : conclude slot 5 _ = t at hExec
  have hCh (c : Chan) : t.ch c = { s.lockout b c with statusDue := false } := by
    rw [← ht, conclude_answer_ch]
    exact congrArg (fun x : Channel => { x with statusDue := false }) (PerChan.get_ofFn (s.lockout b) c)
  refine ⟨t, hExec, by rw [← ht, conclude_rest], fun c i => ?allowed, fun c => ?channel,
    ht ▸ conclude_answered _ _ _ _ (Nat.le_succ _), ?queue, by rw [← ht, conclude_rest]⟩
  case allowed =>
    rw [hCh]
    refine (State.lockout_allowed i).trans ?_
    obtain h | h := hAction <;> simp [h]
  case channel =>
    rw [hCh]
    split
    case isTrue hUnseats =>
      exact State.lockout_unseated (hCoherent.1 c (Chan.mem_all c)) (State.unseats_iff.2 hUnseats)
    case isFalse hSeated =>
      have hSame := State.lockout_seated (mt State.unseats_iff.1 hSeated)
      refine (congrArg (fun x : Channel => { x with statusDue := false }) hSame).trans ?_
      exact Channel.unmarked (hs.due c)
  case queue =>
    have hQueue : t.startQueue = s.startQueue.filter fun c => !s.lockoutLeaves b c := by rw [← ht, conclude_rest]; rfl
    refine hQueue.trans (List.filter_congr fun c hc => ?_)
    have hQueued := (hCoherent.2.2.1 c (Chan.mem_all c)).1 hc
    rw [hCh]
    by_cases hUnseats : s.unseats b c
    · have hIdle := (State.lockout_unseated (hCoherent.1 c (Chan.mem_all c)) hUnseats).2.2
      obtain ⟨hSet, hMask, hOut⟩ := hUnseats
      simp [State.lockoutLeaves, hIdle, hQueued, hSet, hMask, hOut]
    · have hSame : (s.lockout b c).mstate = (s.ch c).mstate := by
        have hSeated := congrArg Channel.mstate (State.lockout_seated hUnseats)
        exact hSeated
      have hStays : s.lockoutLeaves b c = false := by
        by_contra hLeaves
        simp only [State.lockoutLeaves, Bool.not_eq_false, Bool.and_eq_true, decide_eq_true_eq] at hLeaves
        obtain ⟨⟨⟨hSet, hMask⟩, hOut⟩, -⟩ := hLeaves
        exact hUnseats ⟨hSet, hMask, hOut⟩
      simp [hStays, hSame, hQueued]

end Sys2Proof.Machine
end

section
/-! PROOFS. Battery samples and bands (R63, R117, R137 to R141). -/

namespace Sys2Proof.Machine
section
variable {s t : State} {c : Chan} {u : Channel} {b : Band}

/-- The samples after one more voltage (R137). -/
def State.sampled (s : State) (code : Nat) : List Nat :=
  let l := s.samples ++ [code * Config.mvPerCode]
  if Config.maxSamples < l.length then l.drop 1 else l

theorem State.sampled_eq (code : Nat) (h : s.samples.length ≤ 4) : s.sampled code =
    (if s.samples.length = 4 then s.samples.tail else s.samples) ++ [code * 25] := by
  unfold State.sampled
  by_cases hFull : s.samples.length = 4
  · obtain ⟨x, l, hl⟩ := List.exists_cons_of_length_eq_add_one hFull
    simp [hl, Config.maxSamples, Config.mvPerCode, hl ▸ hFull]
    have hLength : l.length = 3 := by simpa [hl] using hFull
    simp [hLength]
  · have hShort : ¬4 < s.samples.length + 1 := by omega
    simp [Config.maxSamples, Config.mvPerCode, hFull, hShort]

/-- The voltage after one more sample (R137). -/
def State.sampledVolts (s : State) (code : Nat) : Nat := (s.sampled code).sum / (s.sampled code).length

/-- The part with one more sample, its band not yet judged. -/
def State.withSample (s : State) (code : Nat) : State :=
  { s.waitUntil s.nextSample with
    nextSample := s.nextSample + 1, samples := s.sampled code, volts := s.sampledVolts code }

theorem exec_batterySample (s : State) (code : BitVec 10) : exec (.batterySample code) s =
    .next (flush (changeBand (nextBand s.band (s.sampledVolts code.toNat)) (s.withSample code.toNat))) := rfl

/-- What a change to a band stops (R139, R140, R141). -/
def Channel.bandStopped (b : Band) (u : Channel) : Bool :=
  match b with
  | .normal => false
  | .low => u.stoppedByLow
  | .high => u.owner.isSome

/-- The record of a motion when the band changes (R63). -/
def Motion.supplied (left : Bool) (m : Motion) : Motion := { m with supplyNormal := m.supplyNormal && !left }

/-- The channel when the band changes, before the stops. -/
def Channel.supplied (left : Bool) (u : Channel) : Channel := u.mapMotion (·.supplied left)

theorem bandStops_eq (b : Band) (s : State) : bandStops b s =
    forChans (fun c s => if (s.ch c).bandStopped b then stopRequest c .supply s else s) s := rfl

/-- A change of band keeps the agreement of the channel, which does not read the supply flag of the record. -/
theorem Channel.coherent.supplied (h : u.coherent) (left : Bool) : (u.supplied left).coherent := by
  refine h.congr ?_ (.inr rfl)
  unfold Channel.supplied Channel.mapMotion Channel.drive
  rw [Option.map_map]
  rfl

theorem Channel.stoppedByLow_supplied (left : Bool) : (u.supplied left).stoppedByLow = u.stoppedByLow := by
  have hDir : (u.supplied left).motion.map (·.dir) = u.motion.map (·.dir) := by
    rw [Channel.supplied, Channel.mapMotion, Option.map_map]; rfl
  unfold Channel.stoppedByLow
  rw [hDir]
  rfl

theorem Channel.bandStopped_supplied (left : Bool) : (u.supplied left).bandStopped b = u.bandStopped b := by
  cases b with
  | low => exact Channel.stoppedByLow_supplied left
  | _ => rfl

/-- What a change to the band `b` makes of a channel. -/
def State.rebanded (s : State) (b : Band) (c : Chan) : Channel :=
  if (s.ch c).bandStopped b then ((s.ch c).supplied (decide (s.band = .normal))).stopped s.clock .supply
  else (s.ch c).supplied (decide (s.band = .normal))

/-- A changed band: every record notes it, and each channel that the band stops has its stop request. -/
theorem changeBand_eq (h : b ≠ s.band) : changeBand b s = { s with
    band := b
    channels := PerChan.ofFn fun c => s.rebanded b c
    startQueue := s.startQueue.filter fun c => !((s.ch c).bandStopped b && decide ((s.ch c).mstate = .queued)) } := by
  unfold changeBand
  rw [if_neg h]
  dsimp only
  rw [forChans_modCh, bandStops_eq, forChans_stops (fun _ u => u.bandStopped b)]
  have hReport (u : Channel) : u.stopReport .supply = none := rfl
  have hSupplied (left : Bool) (u : Channel) :
      (u.mapMotion fun m => { m with supplyNormal := m.supplyNormal && !left }) = u.supplied left := rfl
  simp only [State.ch, PerChan.get_ofFn, hReport, ite_self, outcomesWritten_none, hSupplied,
    Channel.bandStopped_supplied]
  rfl

/-- LOW stops a REFERENCE, and a motion with a direction that closes or tilts (R117, R139). -/
theorem Channel.stoppedByLow_iff : u.stoppedByLow = true ↔ ∃ o ∈ u.owner,
    o.mode = .reference ∨
      ((∀ g ∈ o.goal, goalDir u.tune.axis g u.position ≠ none) ∧
        ((if u.mstate = .braking then o.dir else (u.motion.map (·.dir)).getD o.dir) = .dec ∨
          (u.tune.axis = .twoSided ∧
            (if u.mstate = .braking then o.dir else (u.motion.map (·.dir)).getD o.dir) = .inc ∧ u.position < 0))) := by
  unfold Channel.stoppedByLow
  cases hOwner : u.owner with
  | none => simp
  | some o =>
    simp only [Option.mem_def, Option.some.injEq, exists_eq_left']
    by_cases hMode : o.mode = Mode.reference
    · simp [hMode, classify]
    · generalize (if u.mstate = .braking then o.dir else (u.motion.map (·.dir)).getD o.dir) = d
      have hWish : (wishDir u.tune.axis o.goal u.position).isNone = true ↔
          ¬∀ g ∈ o.goal, goalDir u.tune.axis g u.position ≠ none := by
        cases o.goal <;> simp [wishDir]
      by_cases hStill : (wishDir u.tune.axis o.goal u.position).isNone = true
      · simp only [if_pos hStill, hMode, decide_false, classify, Bool.false_eq_true, if_false, false_or]
        exact ⟨nofun, fun h => absurd h.1 (hWish.1 hStill)⟩
      · have hMoves := not_not.1 (mt hWish.2 hStill)
        simp only [if_neg hStill, hMode, decide_false, classify, Bool.false_eq_true, if_false, false_or]
        rw [and_iff_right (show ∀ g, o.goal = some g → _ from hMoves)]
        cases u.tune.axis with
        | oneSided => cases d <;> simp [towardZero]
        | twoSided =>
          cases d with
          | inc => by_cases hBelow : u.position < 0 <;> simp [towardZero, hBelow]
          | dec =>
            by_cases hAbove : 0 < u.position
            · simp [towardZero, hAbove]
            · simp [towardZero, hAbove, not_lt.1 hAbove]

end

/-- Settles O28: the sample joins the last four, and the band is judged by the mean. -/
theorem batterySampleIsTaken : Obligations.BatterySampleIsTaken := by
  intro s code hs hLength
  have hExec := exec_batterySample s code
  have hBand (h : nextBand s.band (s.sampledVolts code.toNat) = s.band) :
      changeBand (nextBand s.band (s.sampledVolts code.toNat)) (s.withSample code.toNat) = s.withSample code.toNat :=
    if_pos h
  have hTo : ∃ channels startQueue,
      changeBand (nextBand s.band (s.sampledVolts code.toNat)) (s.withSample code.toNat) = { s.withSample code.toNat with
        band := nextBand s.band (s.sampledVolts code.toNat), channels := channels, startQueue := startQueue } := by
    by_cases h : nextBand s.band (s.sampledVolts code.toNat) = s.band
    · exact ⟨s.channels, s.startQueue, by rw [hBand h, h]; rfl⟩
    · exact ⟨_, _, changeBand_eq h⟩
  obtain ⟨channels, startQueue, hTo⟩ := hTo
  refine ⟨_, hExec, ?_, ?_, ?_, ?_, ?_, fun hSame => ?_⟩
  · rw [hTo, flush_rest]; rfl
  · rw [hTo, flush_rest]; rfl
  · rw [hTo, flush_rest]; exact s.sampled_eq code.toNat hLength
  · rw [hTo, flush_rest]; rfl
  · rw [hTo, flush_rest]; rfl
  · have hStays : nextBand s.band (s.sampledVolts code.toNat) = s.band := by
      rw [hTo, flush_rest] at hSame; exact hSame
    have hNone : (s.withSample code.toNat).noneDue := hs
    rw [hBand hStays, flush_of_noneDue hNone]
    exact ⟨fun _ => rfl, rfl⟩

/-- A stopped channel is an owned one. -/
theorem Channel.bandStopped_owned {b : Band} {u : Channel} (h : u.bandStopped b = true) : ∃ o, u.owner = some o := by
  cases b with
  | normal => exact absurd h nofun
  | low =>
    obtain ⟨o, hOwner, -⟩ := Channel.stoppedByLow_iff.1 h
    exact ⟨o, hOwner⟩
  | high => exact Option.isSome_iff_exists.1 h

/-- What a changed band leaves of the part. -/
theorem flush_changeBand {s t : State} {b : Band} (hs : s.noneDue) (hCoherent : s.coherent) (hNew : b ≠ s.band)
    (ht : t = flush (changeBand b s)) :
    (∀ c, ((s.ch c).bandStopped b = true → (t.ch c).owner = none ∧ (t.ch c).stopCause = .supply ∧
        (t.ch c).mstate = (if (s.ch c).mstate = .queued then .idle else .braking)) ∧
      ((s.ch c).bandStopped b ≠ true → (t.ch c).mstate = (s.ch c).mstate ∧ (t.ch c).owner = (s.ch c).owner ∧
        (t.ch c).stopCause = (s.ch c).stopCause ∧ (t.ch c).bridge = (s.ch c).bridge) ∧
      (t.ch c).position = (s.ch c).position) ∧
    t.startQueue = s.startQueue.filter (fun c => (t.ch c).mstate = .queued) ∧ t.band = b ∧
    { t with channels := s.channels, txQueue := s.txQueue, startQueue := s.startQueue, band := s.band } = s := by
  rw [changeBand_eq hNew] at ht
  obtain ⟨hCh, -, hQueue, -, -⟩ := flush_turned (s := { s with band := b }) (X := s.rebanded b) (l := s.incidents) hs
    (by exact ht)
  have hStopped (c : Chan) (h : (s.ch c).bandStopped b = true) : (t.ch c).owner = none ∧
      (t.ch c).stopCause = .supply ∧ (t.ch c).mstate = (if (s.ch c).mstate = .queued then .idle else .braking) := by
    obtain ⟨o, hOwner⟩ := Channel.bandStopped_owned h
    rw [hCh, State.rebanded, if_pos h]
    exact ((hCoherent.1 c (Chan.mem_all c)).supplied _).stopped_owned hOwner s.clock .supply
  have hLeft (c : Chan) (h : (s.ch c).bandStopped b ≠ true) :
      t.ch c = { (s.ch c).supplied (decide (s.band = .normal)) with statusDue := false } := by
    rw [hCh, State.rebanded, if_neg h]
  refine ⟨fun c => ⟨hStopped c, fun h => ?_, ?_⟩, ?_, by rw [ht, flush_rest], by rw [ht, flush_rest]⟩
  · rw [hLeft c h]
    exact ⟨rfl, rfl, rfl, rfl⟩
  · rw [hCh, State.rebanded]
    split
    · exact Channel.stopped_position _ s.clock .supply
    · rfl
  · refine hQueue.trans (List.filter_congr fun c hc => ?_)
    have hQueued := (hCoherent.2.2.1 c (Chan.mem_all c)).1 hc
    by_cases h : (s.ch c).bandStopped b = true
    · obtain ⟨-, -, hState⟩ := hStopped c h
      simp [hState, hQueued, h]
    · have hState : (t.ch c).mstate = (s.ch c).mstate := by rw [hLeft c h]; rfl
      simp [hState, hQueued, h]

/-- Settles O29: a change of band is one stop request for each channel that it stops. -/
theorem bandStopsMotions : Obligations.BandStopsMotions := by
  intro s code hCoherent hs
  have hExec := exec_batterySample s code
  generalize hb : nextBand s.band (s.sampledVolts code.toNat) = b at hExec
  refine ⟨_, hExec, fun hChanged => ?_⟩
  have hNew : b ≠ s.band := by
    intro hSame
    have hStays : changeBand b (s.withSample code.toNat) = s.withSample code.toNat := if_pos hSame
    rw [hStays, flush_rest] at hChanged
    exact hChanged rfl
  generalize ht : flush (changeBand b (s.withSample code.toNat)) = t
  obtain ⟨hChannels, hQueue, hBand, hFrame⟩ := flush_changeBand (s := s.withSample code.toNat) hs hCoherent hNew ht.symm
  refine ⟨fun c => ?_, hQueue, ?_⟩
  · have hWhen : (t.band = .high ∧ (s.ch c).owner ≠ none ∨ t.band = .low ∧ (s.ch c).stoppedByLow = true) ↔
        (s.ch c).bandStopped b = true := by
      rw [hBand]
      cases b <;> simp [Channel.bandStopped, Option.isSome_iff_ne_none]
    rw [Channel.stoppedByLow_iff] at hWhen
    obtain ⟨hStopped, hLeft, hPosition⟩ := hChannels c
    exact ⟨fun h => hStopped (hWhen.1 h), fun h => hLeft fun hStop => h (hWhen.2 hStop), hPosition⟩
  · rw [← ht, changeBand_eq (s := s.withSample code.toNat) hNew, flush_rest]; rfl

end Sys2Proof.Machine
end

section
/-! PROOFS. The crank-hold line and its limit (R104, R105, R106, R143 to R147). -/

namespace Sys2Proof.Machine
section
variable {s t : State} {c : Chan} {u : Channel} {level : Bool} {stable : Nat}

/-- The part when HOLDIN has been accepted at a level at µs `now` (R143). -/
def State.holdAt (s : State) (level : Bool) (now : Nat) : State :=
  { s with clock := now, holdLine := ⟨level, none⟩, holdSampled := now }

theorem sampleHold_accepted (hLine : s.holdLine = ⟨!level, none⟩) (hStable : 500 ≤ stable) :
    sampleHold level stable s =
      if level then assertHold (s.holdAt level (max s.clock (s.holdSampled + 1) + 500))
      else releaseHold (s.holdAt level (max s.clock (s.holdSampled + 1) + 500)) := by
  have hRun := Filter.sampleRun_change level (max s.clock (s.holdSampled + 1)) 500 hStable
  rw [← hLine] at hRun
  unfold sampleHold
  dsimp only
  rw [show Config.holdFilter = 500 from rfl, hRun]
  rfl

/-- A channel that waits or is paused with a master motion ends at the hold limit (R106). -/
def Channel.waits (u : Channel) : Bool := decide (u.mstate = .queued) || u.pausedMaster

theorem expireHoldLimit_eq (s : State) : expireHoldLimit s = { s with
    holdLimitTimer := none, limitExpired := true
    channels := PerChan.ofFn fun c => if (s.ch c).waits then (s.ch c).dropMotion s.clock .hold else s.ch c
    startQueue := s.startQueue.filter fun c => !decide ((s.ch c).mstate = .queued) } := by
  unfold expireHoldLimit
  rw [forChans_turns (s := { s with holdLimitTimer := none, limitExpired := true })
    (X := fun c => if (s.ch c).waits then (s.ch c).dropMotion s.clock .hold else s.ch c)
    (L := fun c => decide ((s.ch c).mstate = .queued)) (O := fun _ => none) fun c v hRest hCh => ?_,
    outcomesWritten_none]
  have hClock : v.clock = s.clock := hRest.clock
  replace hCh : v.ch c = s.ch c := hCh
  rw [hCh, Channel.waits]
  cases hMaster : (s.ch c).pausedMaster with
  | true =>
    have hPaused := Channel.pausedMaster_mstate hMaster
    simp only [hPaused, if_true, Bool.or_true]
    rw [State.modCh, hCh, hClock]
    rfl
  | false =>
    by_cases hQueued : (s.ch c).mstate = .queued
    · simp only [hQueued, if_true, decide_true, Bool.true_or, Bool.false_eq_true, if_false]
      rw [← hCh, ← hClock]
      rfl
    · simp only [hQueued, if_false, decide_false, Bool.or_self, Bool.false_eq_true]
      rw [← hCh]
      exact (State.turn_self v c).symm

end

/-- Settles O32: each waiting motion is dropped, so that the start queue is empty. -/
theorem holdLimitEnds : Obligations.HoldLimitEnds := by
  intro s d hs hCoherent hTimer
  have hExec : exec .holdLimitExpiry s = execHoldLimitExpiry s := rfl
  rw [execHoldLimitExpiry, hTimer] at hExec
  have hEmpty : (s.startQueue.filter fun c => !decide ((s.ch c).mstate = .queued)) = [] :=
    List.filter_eq_nil_iff.2 fun c hc => by simp [(hCoherent.2.2.1 c (Chan.mem_all c)).1 hc]
  have hExpire := expireHoldLimit_eq (s.waitUntil d)
  obtain ⟨hCh, hKept, hQueue, -, -⟩ := flush_turned
    (s := { s.waitUntil d with holdLimitTimer := none, limitExpired := true }) (l := s.incidents) hs
    (by exact congrArg flush hExpire)
  refine ⟨_, hExec, ?_, ?_, ?_, hQueue.trans hEmpty, fun c => ?_, ?_⟩
  · rw [flush_rest, hExpire]; rfl
  · rw [flush_rest, hExpire]
  · rw [flush_rest, hExpire]
  · have hWaits : (s.ch c).waits = true ↔ (s.ch c).mstate = .queued ∨ (s.ch c).pausedMaster = true := by
      simp [Channel.waits]
    split
    case isTrue h =>
      rw [hCh, if_pos (by exact hWaits.2 h)]
      simp
    case isFalse h => exact hKept c (if_neg (by exact mt hWaits.1 h))
  · rw [flush_rest, hExpire]; rfl

/-! ### The assertion (R104, R144) -/

section
variable (u : Channel) (now : Nat)

/-- The pause of a driving channel. -/
def Channel.pausedNow (x : PausedFrom) : Channel :=
  (({ ((u.mapMotion fun m => { m with holdFree := false }).freezeRun now).mapMotion fun m =>
    { m with pausedFrom := some x } with ramp := none }).setMState .paused).setBridge now .off 0

/-- The state a motion is paused from. -/
def MotionState.pausedFrom : MotionState → PausedFrom
  | .starting => .starting
  | .running => .running
  | _ => .reversing

theorem Channel.pauseForHold_driving {u : Channel} (h : u.mstate.driving = true) :
    u.pauseForHold now = u.pausedNow now u.mstate.pausedFrom := by
  unfold Channel.pauseForHold
  dsimp only
  cases hState : u.mstate <;> simp only [hState, MotionState.driving, Channel.mapMotion_mstate] at h ⊢
  case starting | running | reversing => rfl
  all_goals cases h

theorem Channel.pauseForHold_waiting {u : Channel} (h : u.mstate.driving ≠ true) :
    u.pauseForHold now = u.mapMotion fun m => { m with holdFree := false } := by
  unfold Channel.pauseForHold
  dsimp only
  cases hState : u.mstate <;> simp only [hState, MotionState.driving, Channel.mapMotion_mstate] at h ⊢
  all_goals exact absurd rfl h

@[simp] theorem Channel.pausedNow_mstate (x : PausedFrom) : (u.pausedNow now x).mstate = .paused := by
  simp [Channel.pausedNow]
@[simp] theorem Channel.pausedNow_bridge (x : PausedFrom) : (u.pausedNow now x).bridge = .off := by
  simp [Channel.pausedNow]
@[simp] theorem Channel.pausedNow_owner (x : PausedFrom) : (u.pausedNow now x).owner = u.owner := by
  simp [Channel.pausedNow]
@[simp] theorem Channel.pausedNow_stopCause (x : PausedFrom) : (u.pausedNow now x).stopCause = u.stopCause := by
  simp [Channel.pausedNow]
@[simp] theorem Channel.pausedNow_holdTimer (x : PausedFrom) : (u.pausedNow now x).holdTimer = u.holdTimer := by
  simp [Channel.pausedNow]
@[simp] theorem Channel.pausedNow_runSince (x : PausedFrom) : (u.pausedNow now x).runSince = none := by
  simp [Channel.pausedNow]
theorem Channel.pausedNow_motion {u : Channel} {m : Motion} (hMotion : u.motion = some m) (x : PausedFrom) :
    ∃ r, (u.pausedNow now x).motion = some { m with holdFree := false, pausedFrom := some x, runTime := r } := by
  refine ⟨min u.tune.runLimit ((u.mapMotion fun m => { m with holdFree := false }).runElapsed now), ?_⟩
  simp [Channel.pausedNow, hMotion]

/-- The effect of an assertion on one channel (R104, R144). -/
theorem Channel.coherent.pausedForHold {u : Channel} (h : u.coherent) :
    (u.pauseForHold now).drives = false ∧ (u.pauseForHold now).owner = u.owner ∧
    (u.pauseForHold now).stopCause = u.stopCause ∧ (u.pauseForHold now).holdTimer = u.holdTimer ∧
    (∀ m ∈ (u.pauseForHold now).motion, m.holdFree = false) ∧
    if u.mstate.driving then
      (u.pauseForHold now).mstate = .paused ∧ (u.pauseForHold now).bridge = .off ∧
        (u.pauseForHold now).runSince = none ∧
        (u.pauseForHold now).motion.bind (·.pausedFrom) = some u.mstate.pausedFrom
    else (u.pauseForHold now).mstate = u.mstate ∧ (u.pauseForHold now).bridge = u.bridge := by
  by_cases hDriving : u.mstate.driving = true
  · obtain ⟨m, hMotion, -⟩ := h.driving hDriving
    obtain ⟨r, hPaused⟩ := Channel.pausedNow_motion now hMotion u.mstate.pausedFrom
    rw [Channel.pauseForHold_driving now hDriving, hPaused, if_pos hDriving]
    simp [Channel.drives, Bridge.dir]
  · have hStill : u.drives = false := h.drives_eq.trans (Bool.eq_false_iff.2 hDriving)
    rw [Channel.pauseForHold_waiting now hDriving, if_neg hDriving]
    refine ⟨hStill, rfl, rfl, rfl, fun m hm => ?_, rfl, rfl⟩
    simp only [Channel.mapMotion, Option.mem_def, Option.map_eq_some_iff] at hm
    obtain ⟨n, -, rfl⟩ := hm
    rfl

end

/-- Settles O30: the assertion is one pause for each channel that drives. -/
theorem assertionPausesTheDrives : Obligations.AssertionPausesTheDrives := by
  intro s stable hs hCoherent hLine hStable
  have hExec : exec (.holdAsserted stable) s = .next (flush (sampleHold true stable s)) := rfl
  rw [sampleHold_accepted (level := true) hLine hStable, if_pos rfl] at hExec
  generalize hNow : max s.clock (s.holdSampled + 1) + 500 = now at hExec ⊢
  have hAssert : assertHold (s.holdAt true now) = { s.holdAt true now with
      holdLimitTimer := some (now / 1000 + s.globals.holdLimit), limitExpired := false
      channels := PerChan.ofFn fun c => (s.ch c).pauseForHold now } := rfl
  obtain ⟨hCh, -, -, -, -⟩ := flush_turned (s := { s.holdAt true now with
      holdLimitTimer := some (now / 1000 + s.globals.holdLimit), limitExpired := false }) (l := s.incidents)
      (q := s.startQueue) hs (by exact congrArg flush hAssert)
  refine ⟨_, hExec, ?_, ?_, ?_, ?_, fun c => ?_, ?_⟩
  case refine_5 =>
    have hPaused := (hCoherent.1 c (Chan.mem_all c)).pausedForHold now
    rw [hCh]
    unfold MotionState.pausedFrom at hPaused
    exact hPaused
  case refine_4 => rw [flush_rest, hAssert]
  all_goals rw [flush_rest, hAssert]; rfl

/-! ### The release (R96, R98, R105, R147) -/

section
variable {s t : State} {c : Chan} {u : Channel} {m : Motion} {now : Nat}

/-- A reversal that has reached its target: it brakes, and its cause stays (R96). -/
def Channel.completed (now : Nat) (u : Channel) : Channel := u.toReversing.enterBraking now ⟨.none, true⟩

/-- What a release makes of a channel: `resumes` tells whether paused master motions go on (R105, R147). -/
def Channel.released (now : Nat) (resumes : Bool) (u : Channel) : Channel :=
  if u.pausedReversal then
    match u.motion with
    | some m => if m.reached u.position then u.completed now else u.driveReversal now m.dir
    | none => u
  else if u.pausedMaster then (if resumes then u.resume else u.dropMotion now .hold)
  else u

/-- The outcome a release reports of a channel (R98). -/
def Channel.releaseReport (u : Channel) : Option ReversalOutcome :=
  if u.pausedReversal ∧ u.motion.any (·.reached u.position) then some .completed else none

theorem Channel.pausedReversal_motion (h : u.pausedReversal = true) : ∃ m, u.motion = some m := by
  cases hMotion : u.motion with
  | none => simp [Channel.pausedReversal, hMotion] at h
  | some m => exact ⟨m, rfl⟩

theorem enterReversing_turn (hMotion : (s.ch c).motion = some m) : enterReversing c s =
    s.turn c (if m.reached (s.ch c).position then (s.ch c).completed s.clock
      else (s.ch c).driveReversal s.clock m.dir) false
      (if m.reached (s.ch c).position then some .completed else none) := by
  rw [enterReversing_eq hMotion]
  cases m.reached (s.ch c).position with
  | false => rfl
  | true =>
    have hReported : (reportOutcome c .completed (s.setCh c (s.ch c).toReversing)).incidents =
        (reportOutcome c .completed s).incidents := by
      have hRef : (s.ch c).toReversing.motion.bind (·.incidentRef) = (s.ch c).motion.bind (·.incidentRef) := by
        simp [Channel.toReversing, hMotion]
      rw [reportOutcome_incidents, reportOutcome_incidents, State.ch_setCh_self, hRef]
      rfl
    simp only [if_true]
    rw [endReversal_eq, hReported, setCh_setCh, State.ch_setCh_self]
    rfl

theorem releaseHold_eq (s : State) : releaseHold s =
    let resumes := s.globals.autoResume && !s.limitExpired
    { s with
      holdLimitTimer := none, limitExpired := false
      channels := PerChan.ofFn fun c => (s.ch c).released s.clock resumes
      startQueue := Chan.all.filter (fun c => resumes && (s.ch c).pausedMaster) ++ s.startQueue
      incidents := outcomesWritten (fun c => (s.ch c).releaseReport) s } := by
  unfold releaseHold
  dsimp only
  rw [forChans_turns (s := { s with holdLimitTimer := none })
    (X := fun c => (s.ch c).released s.clock (s.globals.autoResume && !s.limitExpired))
    (L := fun _ => false) (O := fun c => (s.ch c).releaseReport) fun c v hRest hCh => ?_]
  · simp only [Bool.not_false, List.filter_true]
    rfl
  · have hClock : v.clock = s.clock := hRest.clock
    replace hCh : v.ch c = s.ch c := hCh
    rw [hCh, Channel.released, Channel.releaseReport]
    cases hReversal : (s.ch c).pausedReversal with
    | true =>
      obtain ⟨m, hMotion⟩ := Channel.pausedReversal_motion hReversal
      simp only [if_true, hMotion, true_and, Option.any_some]
      rw [enterReversing_turn (m := m) (by rw [hCh]; exact hMotion), hCh, hClock]
    | false =>
      simp only [Bool.false_eq_true, if_false, false_and]
      cases hMaster : (s.ch c).pausedMaster with
      | false => rw [← hCh]; exact (State.turn_self v c).symm
      | true =>
        cases s.globals.autoResume && !s.limitExpired with
        | true => rw [← hCh]; rfl
        | false => rw [← hCh, ← hClock]; rfl

section
variable (u : Channel) (now : Nat)

@[simp] theorem Channel.completed_mstate : (u.completed now).mstate = .braking := by simp [Channel.completed]
@[simp] theorem Channel.completed_bridge : (u.completed now).bridge = .brake := by simp [Channel.completed]
@[simp] theorem Channel.completed_duty : (u.completed now).duty = 0 := by simp [Channel.completed]
@[simp] theorem Channel.completed_brakeTimer :
    (u.completed now).brakeTimer = some (now / Config.usPerMs + u.tune.brake) := by
  simp [Channel.completed, Channel.toReversing]
@[simp] theorem Channel.completed_stopCause : (u.completed now).stopCause = u.stopCause := by
  simp [Channel.completed, Channel.toReversing]
@[simp] theorem Channel.completed_owner : (u.completed now).owner = u.owner := by
  simp [Channel.completed, Channel.toReversing]
@[simp] theorem Channel.completed_position : (u.completed now).position = u.position := by
  simp [Channel.completed, Channel.toReversing]
@[simp] theorem Channel.completed_datum : (u.completed now).datum = u.datum := by
  simp [Channel.completed, Channel.toReversing]
@[simp] theorem Channel.driveReversal_owner (d : Dir) : (u.driveReversal now d).owner = u.owner := by
  simp [Channel.driveReversal, Channel.toReversing]
@[simp] theorem Channel.driveReversal_datum (d : Dir) : (u.driveReversal now d).datum = u.datum := by
  simp [Channel.driveReversal, Channel.toReversing]
@[simp] theorem Channel.driveReversal_runDuty (d : Dir) : (u.driveReversal now d).runDuty =
    if u.datum = .referenced then u.tune.runDuty else u.tune.limpDuty := by
  by_cases h : u.datum = .referenced <;> simp [Channel.driveReversal, Channel.chosenDuty, h]

theorem Channel.completed_stallTimer {u : Channel} (h : u.bridge ≠ .brake) : (u.completed now).stallTimer = none :=
  Channel.enterBraking_stallTimer (by exact h) now _

theorem Channel.completed_braking {u : Channel} {m : Motion} (h : u.motion = some m) :
    (u.completed now).motion.bind (·.braking) = some ⟨.none, true⟩ := by
  rw [Channel.completed, Channel.enterBraking_motion]
  simp [Channel.toReversing, h]

end

/-- The release of a paused reversal (R39, R96, R105). -/
theorem Channel.coherent.released_reversal (h : u.coherent) (hReversal : u.pausedReversal = true) (hMotion : u.motion = some m)
    (resumes : Bool) :
    let v := u.released now resumes
    let duty := if u.datum = .referenced then u.tune.runDuty else u.tune.limpDuty
    (if m.reached u.position then
      v.mstate = .braking ∧ v.bridge = .brake ∧ v.duty = 0 ∧ v.stallTimer = none ∧
        v.brakeTimer = some (now / 1000 + u.tune.brake) ∧ v.motion.bind (·.braking) = some ⟨.none, true⟩
    else
      v.mstate = .reversing ∧ v.bridge = m.dir.bridge ∧ v.duty = duty ∧ v.runDuty = duty ∧
        v.phase = some ⟨m.dir, now, false⟩ ∧ v.stallTimer = some (now / 1000 + u.tune.tss) ∧
        v.runSince = some (now / 1000) ∧
        v.motion = some { m with pausedFrom := none, braking := none, runTime := 0 }) ∧
    v.stopCause = u.stopCause ∧ v.owner = none ∧ v.position = u.position ∧ v.datum = u.datum := by
  have hState : u.mstate = .paused := by
    simp only [Channel.pausedReversal, Bool.and_eq_true, decide_eq_true_eq] at hReversal
    exact hReversal.1
  have hBridge : u.bridge = .off := by
    have hFollows := h.bridge
    simp only [Channel.bridgeFollows, hState] at hFollows
    exact hFollows.1
  have hOwner : u.owner = none := by
    have hFollows := h.ownerIs
    obtain hFrom | hFrom : u.motion.bind (·.pausedFrom) = some .reversing ∨
        u.motion.bind (·.pausedFrom) = some .reversal := by
      cases hx : u.motion.bind (·.pausedFrom) with
      | none => simp [Channel.pausedReversal, hx] at hReversal
      | some x => cases x <;> simp [Channel.pausedReversal, hx] at hReversal ⊢
    all_goals simpa [Channel.ownerFollows, Channel.pausedMaster, hState, hFrom] using hFollows
  have hTo : u.released now resumes = if m.reached u.position then u.completed now else u.driveReversal now m.dir := by
    simp only [Channel.released, hReversal, hMotion, if_true]
  intro v duty
  have hv : v = if m.reached u.position then u.completed now else u.driveReversal now m.dir := hTo
  clear_value v
  cases hReached : m.reached u.position with
  | true =>
    rw [if_pos hReached] at hv
    subst hv
    simp [hOwner, Channel.completed_stallTimer now (hBridge ▸ nofun : u.bridge ≠ .brake),
      Channel.completed_braking now hMotion, Config.usPerMs]
  | false =>
    rw [if_neg (by simp [hReached])] at hv
    subst hv
    have hOff : u.bridge.dir = none := by rw [hBridge]; rfl
    simp [hOwner, Channel.driveReversal_stallTimer now m.dir hOff, Channel.driveReversal_phase now m.dir hOff, hMotion,
      Config.usPerMs, duty]

end

/-- Settles O31: the release is one turn for each channel, of a paused reversal or of a paused master motion. -/
theorem releaseResumes : Obligations.ReleaseResumes := by
  intro s stable hs hCoherent hLine hStable
  have hExec : exec (.holdReleased stable) s = .next (flush (sampleHold false stable s)) := rfl
  rw [sampleHold_accepted (level := false) hLine hStable, if_neg Bool.false_ne_true] at hExec
  generalize hNow : max s.clock (s.holdSampled + 1) + 500 = now at hExec ⊢
  have hRelease := releaseHold_eq (s.holdAt false now)
  dsimp only at hRelease
  obtain ⟨hCh, hKept, hQueue, hList, -⟩ := flush_turned (s := { s.holdAt false now with
      holdLimitTimer := none, limitExpired := false }) hs (by exact congrArg flush hRelease)
  refine ⟨_, hExec, ?_, ?_, ?_, ?_, ⟨fun c => ?channel, hList.trans ?list, hQueue⟩, ?_⟩
  case channel =>
    have hClock : (flush (releaseHold (s.holdAt false now))).clock = now := by rw [flush_rest, hRelease]; rfl
    have hMs : (flush (releaseHold (s.holdAt false now))).ms = now / 1000 := congrArg (· / 1000) hClock
    have hReleased := hCh c
    generalize flush (releaseHold (s.holdAt false now)) = t at hReleased hClock hMs hKept
    rw [hClock, hMs]
    have hOne := hCoherent.1 c (Chan.mem_all c)
    intro u duty
    split
    case isTrue hReversal =>
      obtain ⟨m, hMotion⟩ := Channel.pausedReversal_motion hReversal
      obtain ⟨hDrive, hFrame⟩ := hOne.released_reversal (now := now) hReversal hMotion
        (s.globals.autoResume && !s.limitExpired)
      rw [hReleased]
      refine ⟨fun n hn => ?_, hFrame⟩
      obtain rfl : m = n := Option.some.inj (hMotion.symm.trans hn)
      exact hDrive
    case isFalse hReversal =>
      have hTo : (s.ch c).released now (s.globals.autoResume && !s.limitExpired) =
          if (s.ch c).pausedMaster then
            (if s.globals.autoResume && !s.limitExpired then (s.ch c).resume else (s.ch c).dropMotion now .hold)
          else s.ch c := if_neg hReversal
      split
      case isTrue hMaster =>
        rw [if_pos hMaster] at hTo
        split
        case isTrue hResumes =>
          rw [if_pos hResumes] at hTo
          have hResume : t.ch c = { (s.ch c).resume with statusDue := false } :=
            hReleased.trans (congrArg (fun x : Channel => { x with statusDue := false }) hTo)
          rw [hResume]
          exact ⟨rfl, rfl, rfl⟩
        case isFalse hResumes =>
          rw [if_neg hResumes] at hTo
          have hDrop : t.ch c = { (s.ch c).dropMotion now .hold with statusDue := false } :=
            hReleased.trans (congrArg (fun x : Channel => { x with statusDue := false }) hTo)
          rw [hDrop]
          simp
      case isFalse hMaster => exact hKept c (hTo.trans (if_neg hMaster))
  case list =>
    refine congrArg (outcomesWritten · s) (funext fun c => ?_)
    rfl
  case refine_3 => rw [flush_rest, hRelease]
  case refine_4 => rw [flush_rest, hRelease]
  all_goals rw [flush_rest, hRelease]; rfl

end Sys2Proof.Machine
end

section
/-! PROOFS. The Hall lines, their transitions and their faults (R1 to R15). -/

namespace Sys2Proof.Machine
/-! ### The samples of the Hall lines (R1, R2) -/

section
variable {s t : State} {c : Chan} {u : Channel} {a b a' b' : Bool} {stable : Nat}

/-- The part whose channel `c` has accepted a pair of Hall levels at µs `now`. -/
def State.hallAt (s : State) (c : Chan) (a b : Bool) (now : Nat) : State :=
  ({ s with clock := now }).modCh c fun ch => { ch with hallA := ⟨a, none⟩, hallB := ⟨b, none⟩, hallSampled := now }

theorem State.hallAt_ch (s : State) (c : Chan) (a b : Bool) (now : Nat) : (s.hallAt c a b now).ch c =
    { s.ch c with hallA := ⟨a, none⟩, hallB := ⟨b, none⟩, hallSampled := now } := State.ch_modCh_self _ c _

theorem hallAt_oneChannel (s : State) (c : Chan) (a b : Bool) (now : Nat) :
    oneChannel c { s with clock := now } (s.hallAt c a b now) := modCh_oneChannel c _ _

theorem State.noneDue.hallAt (hs : s.noneDue) (c : Chan) (a b : Bool) (now : Nat) : (s.hallAt c a b now).noneDue :=
  oneChannel.noneDue (hallAt_oneChannel s c a b now) (by exact hs)
    ((congrArg Channel.statusDue (s.hallAt_ch c a b now)).trans (hs.due c))

/-- A line at a new level starts its interval; one at its accepted level has none. -/
theorem Filter.see_of_settled (l raw : Bool) (t time : Nat) : (⟨l, none⟩ : Filter).see t raw time =
    ⟨l, if raw = l then none else some ⟨t, time⟩⟩ := by
  unfold Filter.see
  split <;> rfl

theorem Filter.settle_of_due (l raw : Bool) (t time : Nat) :
    (⟨l, if raw = l then none else some ⟨t, time⟩⟩ : Filter).settle (t + time) = ⟨raw, none⟩ := by
  cases l <;> cases raw <;> simp [Filter.settle, Filter.accepts, Filter.due]

/-- A new pair of levels that is sampled for the filter time is accepted at one µs, and judged (R1, R2). -/
theorem sampleHall_accepted (hA : (s.ch c).hallA = ⟨a, none⟩) (hB : (s.ch c).hallB = ⟨b, none⟩)
    (hNew : a' ≠ a ∨ b' ≠ b) (hStable : (s.ch c).tune.filter ≤ stable) :
    sampleHall c a' b' stable s = hallPair c a b a' b'
      (s.hallAt c a' b' (max s.clock ((s.ch c).hallSampled + 1) + (s.ch c).tune.filter)) := by
  unfold sampleHall
  dsimp only
  rw [hA, hB]
  simp only [Filter.see_of_settled]
  generalize max s.clock ((s.ch c).hallSampled + 1) = t0
  have hDue : earlier
      (⟨a, if a' = a then none else some ⟨t0, (s.ch c).tune.filter⟩⟩ : Filter).due
      (⟨b, if b' = b then none else some ⟨t0, (s.ch c).tune.filter⟩⟩ : Filter).due =
        some (t0 + (s.ch c).tune.filter) := by
    by_cases hA' : a' = a <;> by_cases hB' : b' = b <;> simp [hA', hB', Filter.due, earlier]
    exact absurd hNew (by simp [hA', hB'])
  have hNow : max t0 (t0 + (s.ch c).tune.filter) = t0 + (s.ch c).tune.filter := by omega
  rw [hDue]
  simp only [if_neg (show ¬t0 + stable < t0 + (s.ch c).tune.filter by omega), Filter.settle_of_due, hNow]
  rfl

theorem State.hallAt_setCh (s : State) (c : Chan) (a b : Bool) (now : Nat) (x : Channel) :
    (s.hallAt c a b now).setCh c x = { s with clock := now }.setCh c x := setCh_setCh { s with clock := now } c _ x

/-- The accepted pair sampled again: every interval is abandoned (R1). -/
theorem sampleHall_still (s : State) (c : Chan) (stable : Nat) :
    sampleHall c (s.ch c).hallA.level (s.ch c).hallB.level stable s =
      s.hallAt c (s.ch c).hallA.level (s.ch c).hallB.level (max s.clock ((s.ch c).hallSampled + 1) + stable) := by
  unfold sampleHall
  simp only [Filter.see_level]
  rfl

end

/-! ### The fault counters (R14, R15) -/

section
variable {s t : State} {c : Chan} {u x : Channel} {step rev speed : Bool}

/-- A channel whose fault counters have taken the faults of one edge. -/
def Channel.faulted (g : GlobalTuning) (step rev speed : Bool) (u : Channel) : Channel :=
  { u with
    stepFaults := (countFault g.counterMode g.th step u.stepFaults).1
    reverseFaults := (countFault g.counterMode g.th rev u.reverseFaults).1
    speedFaults := (countFault g.counterMode g.th speed u.speedFaults).1 }

/-- No counter becomes equal to Th. -/
def Channel.belowTh (g : GlobalTuning) (step rev speed : Bool) (u : Channel) : Prop :=
  (step = true → raiseCounter g.counterMode u.stepFaults ≠ g.th) ∧
  (rev = true → raiseCounter g.counterMode u.reverseFaults ≠ g.th) ∧
  (speed = true → raiseCounter g.counterMode u.speedFaults ≠ g.th)

theorem countFault_none (m : CounterMode) (th n : Nat) : countFault m th false n = (n, false) := rfl

theorem countFault_below {m : CounterMode} {th n : Nat} {f : Bool} (h : f = true → raiseCounter m n ≠ th) :
    (countFault m th f n).2 = false := by
  cases f with
  | false => rfl
  | true => simp [countFault, h rfl]

/-- Faults without a threshold event change the counters only. -/
theorem countFaults_below (h : (s.ch c).belowTh s.globals step rev speed) :
    countFaults c step rev speed s = s.setCh c ((s.ch c).faulted s.globals step rev speed) := by
  obtain ⟨hStep, hRev, hSpeed⟩ := h
  unfold countFaults
  simp only [countFault_below hStep, countFault_below hRev, countFault_below hSpeed, Bool.or_self, Bool.false_eq_true,
    if_false]
  rfl

/-- A counter that becomes equal to Th: the datum is lost, the summary kept up, and the motion stopped (R15). -/
theorem countFaults_step (hBelow : (s.ch c).stepFaults < 255) (hTh : (s.ch c).stepFaults + 1 = s.globals.th) :
    countFaults c true false false s = stopRequest c .hall (s.setCh c
      ((({ s.ch c with stepFaults := s.globals.th }).setSummary { (s.ch c).summary with step := true }).setDatum
        .unreferenced)) := by
  have hCount : countFault s.globals.counterMode s.globals.th true (s.ch c).stepFaults = (s.globals.th, true) := by
    have hRaise : raiseCounter s.globals.counterMode (s.ch c).stepFaults = s.globals.th := by
      unfold raiseCounter
      rw [if_pos (by exact hBelow), hTh]
    simp only [countFault, if_true, hRaise, Prod.mk.injEq, true_and, decide_eq_true_eq]
    omega
  unfold countFaults
  simp only [hCount, countFault_none, Bool.or_false, Bool.or_true, if_true]
  simp only [State.modCh, State.ch_setCh_self, setCh_setCh]

/-- A stop request to a channel that is IDLE or drives a motion reports no outcome. -/
theorem stopRequest_setCh {cause : StopCause} (h : x.mstate = .idle ∨ x.mstate = .starting ∨ x.mstate = .running) :
    stopRequest c cause (s.setCh c x) = s.setCh c (x.stopped s.clock cause) := by
  have hReport : x.stopReport cause = none := by
    unfold Channel.stopReport
    obtain h | h | h := h <;> simp [h]
  have hStays : decide (x.mstate = .queued) = false := by
    obtain h | h | h := h <;> simp [h]
  rw [stopRequest_turn, State.ch_setCh_self, hReport, hStays]
  simp only [State.turn, setCh_setCh]
  rfl

end

/-- Settles O10: both lines at one sample raise the STEP counter, and at Th stop the motion. -/
theorem stepFaultsCount : Obligations.StepFaultsCount := by
  unfold Obligations.StepFaultsCount
  have hPair (s : State) (c : Chan) (a b : Bool) : hallPair c a b (!a) (!b) s = countFaults c true false false s := by
    unfold hallPair
    exact if_pos (by simp)
  refine ⟨?below, ?threshold⟩
  case below =>
    intro s c a b stable n n' hs hA hB hStable hNot
    have hExec : exec (.hallTransition c (!a) (!b) stable) s = .next (flush (sampleHall c (!a) (!b) stable s)) := rfl
    rw [sampleHall_accepted hA hB (.inl (by simp)) hStable, hPair] at hExec
    generalize max s.clock ((s.ch c).hallSampled + 1) + (s.ch c).tune.filter = now at hExec
    have hRaise : raiseCounter s.globals.counterMode n = n' := by
      unfold raiseCounter
      simp only [n']
      cases s.globals.counterMode <;> rfl
    have hCh := s.hallAt_ch c (!a) (!b) now
    have hBelow : ((s.hallAt c (!a) (!b) now).ch c).belowTh s.globals true false false := by
      rw [hCh]
      exact ⟨fun _ => hRaise ▸ hNot, Bool.noConfusion, Bool.noConfusion⟩
    rw [countFaults_below hBelow, hCh, State.hallAt_setCh, flush_of_noneDue] at hExec
    · refine ⟨_, hExec, ?_, ?_, ?_, ?_, (setCh_oneChannel c _ _).others, rfl⟩ <;> rw [State.ch_setCh_self]
      · rfl
      · rfl
      · exact hRaise
      · rfl
    · exact oneChannel.noneDue (setCh_oneChannel c _ { s with clock := now }) (by exact hs)
        ((congrArg Channel.statusDue (State.ch_setCh_self _ c _)).trans (hs.due c))
  case threshold =>
    intro s c a b stable hs hA hB hStable hBelow hTh hCoherent hState
    have hExec : exec (.hallTransition c (!a) (!b) stable) s = .next (flush (sampleHall c (!a) (!b) stable s)) := rfl
    rw [sampleHall_accepted hA hB (.inl (by simp)) hStable, hPair] at hExec
    generalize max s.clock ((s.ch c).hallSampled + 1) + (s.ch c).tune.filter = now at hExec
    have hCh := s.hallAt_ch c (!a) (!b) now
    rw [countFaults_step (by rw [hCh]; exact hBelow) (by rw [hCh]; exact hTh), hCh, State.hallAt_setCh] at hExec
    generalize hx : Channel.setDatum _ _ = x at hExec
    have hSame : x.mstate = (s.ch c).mstate ∧ x.motion = (s.ch c).motion ∧ x.position = (s.ch c).position ∧
        x.stopCause = (s.ch c).stopCause ∧ x.stepFaults = s.globals.th ∧ x.datum = .unreferenced ∧
        x.summary = { (s.ch c).summary with step := true } := by
      subst hx; simp; rfl
    obtain ⟨hState', hMotion', hPosition', hCause', hCount', hDatum', hSummary'⟩ := hSame
    rw [stopRequest_setCh (by rw [hState']; exact hState)] at hExec
    have hAt : ∀ y, (flush (State.setCh { s with clock := now } c y)).ch c = { y with statusDue := false } := fun y => by
      rw [flush_ch, State.ch_setCh_self]
    have hOthers (y : Channel) : othersKept c s (flush (State.setCh { s with clock := now } c y)) :=
      flush_othersKept hs (setCh_oneChannel c y { s with clock := now }).others
    by_cases hIdle : (s.ch c).mstate = .idle
    · have hTo : x.stopped now .hall = x := by
        unfold Channel.stopped
        simp only [hState', hIdle]
      refine ⟨_, hExec, ?_, ?_, ?_, ?_, ?_, hOthers _, by rw [flush_rest]; rfl⟩ <;> rw [hAt, hTo]
      · exact hCount'
      · exact hSummary'
      · exact hDatum'
      · exact hPosition'
      · rw [if_pos hIdle]
        exact ⟨hState'.trans hIdle, hCause'⟩
    · have hTo : x.stopped now .hall = x.endMotion now .hall := by
        unfold Channel.stopped
        obtain h | h | h := hState
        · exact absurd h hIdle
        · simp only [hState', h]
        · simp only [hState', h]
      have hSome : x.motion ≠ none := by
        rw [hMotion', Ne, hCoherent.motion_none]
        exact hIdle
      refine ⟨_, hExec, ?_, ?_, ?_, ?_, ?_, hOthers _, by rw [flush_rest]; rfl⟩ <;> rw [hAt, hTo]
      · simpa using hCount'
      · simpa using hSummary'
      · simp [Channel.endMotion_datum, hDatum']
      · simpa using hPosition'
      · rw [if_neg hIdle]
        exact ⟨by simp, by simp, by simp, by simp, Channel.endMotion_braking hSome now .hall⟩

end Sys2Proof.Machine
end

section
/-! PROOFS. The counted edge: position, faults, overtravel and report (R3 to R17, R27 to R39). -/

namespace Sys2Proof.Machine
section
variable {s t : State} {c : Chan} {u x : Channel} {d : Dir} {closing : Bool} {period : Option Nat}

/-- A channel that counts an edge, before anything is judged (R7, R8, R10). -/
def Channel.stepped (now : Nat) (d : Dir) (u : Channel) : Channel :=
  { u with
    position := stepPosition u.position d, edged := true, lastEdge := some now
    phase := u.phase.map fun ph => { ph with edgeSeen := true } }

/-- The period of the edge is too short (R12). -/
def Channel.speedFault (now : Nat) (u : Channel) : Bool :=
  match u.edgePeriod now with
  | some p => decide (p < u.tune.pmin)
  | none => false

/-- The edge goes toward 0. -/
def Channel.closes (d : Dir) (u : Channel) : Bool :=
  decide ((stepPosition u.position d).natAbs < u.position.natAbs)

theorem countEdge_eq (c : Chan) (d : Dir) (s : State) : countEdge c d s =
    edgeReport c ((s.ch c).closes d) ((s.ch c).edgePeriod s.clock) (checkOvertravel c
      (countFaults c false ((s.ch c).reverseFault s.clock d) ((s.ch c).speedFault s.clock)
        (s.setCh c ((s.ch c).stepped s.clock d)))) := rfl

/-- Faults below Th of the channel `x`. -/
theorem countFaults_setCh {step rev speed : Bool} (h : x.belowTh s.globals step rev speed) :
    countFaults c step rev speed (s.setCh c x) = s.setCh c (x.faulted s.globals step rev speed) := by
  rw [countFaults_below (by rw [State.ch_setCh_self]; exact h), State.ch_setCh_self, setCh_setCh]
  rfl

theorem checkOvertravel_inside (h : ¬((s.ch c).datum = .referenced ∧
    outOfTravel (s.ch c).tune (s.ch c).position = true)) : checkOvertravel c s = s := if_neg h

theorem checkOvertravel_outside (hDatum : x.datum = .referenced) (hOut : outOfTravel x.tune x.position = true) :
    checkOvertravel c (s.setCh c x) = stopRequest c .overtravel (s.setCh c (x.setDatum .unreferenced)) := by
  unfold checkOvertravel
  rw [State.ch_setCh_self]
  refine (if_pos ⟨hDatum, hOut⟩).trans ?_
  rw [State.modCh, State.ch_setCh_self, setCh_setCh]

theorem Channel.restartStall_still (h : u.bridge.dir = none) (now : Nat) : u.restartStall now = u := by
  rw [Channel.restartStall, h]
  rfl

/-- A channel that does not drive takes nothing from an edge report but the end of its trips (R27). -/
theorem edgeReport_still (hState : (s.ch c).mstate.driving = false) (hBridge : (s.ch c).bridge.dir = none)
    (closing : Bool) (period : Option Nat) :
    edgeReport c closing period s = s.setCh c { s.ch c with trips := 0 } := by
  have hTrips : (s.ch c).stripTrips = false := Channel.stripTrips_of_mstate (by
    constructor <;> intro h <;> rw [h] at hState <;> cases hState)
  have hStall : s.modCh c (·.restartStall s.clock) = s := by
    rw [State.modCh, Channel.restartStall_still hBridge]
    exact State.modCh_id s c
  have hDetect : (s.ch c).detect s.volts (s.globals.arough s.roughness) closing period =
      ({ s.ch c with trips := 0 }, false) := by
    unfold Channel.detect
    refine if_pos fun h => ?_
    rw [h] at hState
    cases hState
  have hEdge : detectEdge c closing period s = s.setCh c { s.ch c with trips := 0 } := by
    unfold detectEdge
    rw [hDetect]
    rfl
  unfold edgeReport
  dsimp only
  rw [hStall, judgeStrip_untripped hTrips, hEdge]
  unfold driveEdge
  rw [State.ch_setCh_self]
  dsimp only
  cases h : (s.ch c).mstate <;> simp only [h, MotionState.driving] at hState ⊢ <;> cases hState

end

/-- The direction of a counted edge (R3). -/
theorem edgeDir_rotationOf (polarity a b a' b' : Bool) (h : (a != a') ≠ (b != b')) :
    edgeDir polarity (rotationOf a b a' b') = if (forwardNext (a, b) == (a', b')) != polarity then .inc else .dec := by
  revert h
  cases polarity <;> cases a <;> cases b <;> cases a' <;> cases b' <;> decide

section
variable {s : State} {c : Chan} {d : Dir}

/-- An edge of an IDLE channel without its datum moves its position and is judged no further. -/
theorem countEdge_idle (hState : (s.ch c).mstate = .idle) (hBridge : (s.ch c).bridge = .off)
    (hPhase : (s.ch c).phase = none) (hInside : ¬((s.ch c).datum = .referenced ∧
      outOfTravel (s.ch c).tune (stepPosition (s.ch c).position d) = true)) :
    countEdge c d s = s.setCh c { s.ch c with
      position := stepPosition (s.ch c).position d, edged := true, lastEdge := some s.clock, trips := 0 } := by
  have hReverse : (s.ch c).reverseFault s.clock d = false := by rw [Channel.reverseFault, hPhase]
  have hPeriod : (s.ch c).edgePeriod s.clock = none := by rw [Channel.edgePeriod, hPhase]
  have hSpeed : (s.ch c).speedFault s.clock = false := by rw [Channel.speedFault, hPeriod]
  have hStepped : (s.ch c).stepped s.clock d = { s.ch c with
      position := stepPosition (s.ch c).position d, edged := true, lastEdge := some s.clock } := by
    rw [Channel.stepped, hPhase, Option.map_none, ← hPhase]
  rw [countEdge_eq, hReverse, hSpeed,
    countFaults_setCh ⟨Bool.noConfusion, Bool.noConfusion, Bool.noConfusion⟩, checkOvertravel_inside,
    edgeReport_still, setCh_setCh, State.ch_setCh_self, hStepped]
  · rfl
  · rw [State.ch_setCh_self]; exact congrArg MotionState.driving hState
  · rw [State.ch_setCh_self]; exact congrArg Bridge.dir hBridge
  · rw [State.ch_setCh_self]; exact hInside

end

/-- Settles O9: the accepted pair is judged by the count mode; what is counted is one edge of an idle channel. -/
theorem transitionsAreCounted : Obligations.TransitionsAreCounted := by
  unfold Obligations.TransitionsAreCounted
  refine ⟨?accepted, ?still⟩
  case accepted =>
    intro s c a b a' b' stable hs hState hBridge hPhase hDatum hA hB hSingle hStable
    have hExec : exec (.hallTransition c a' b' stable) s = .next (flush (sampleHall c a' b' stable s)) := rfl
    have hNew : a' ≠ a ∨ b' ≠ b := by
      by_contra h
      obtain ⟨rfl, rfl⟩ : a' = a ∧ b' = b := by simpa using h
      exact hSingle (by simp)
    rw [sampleHall_accepted hA hB hNew hStable] at hExec
    generalize max s.clock ((s.ch c).hallSampled + 1) + (s.ch c).tune.filter = now at hExec ⊢
    have hCh := s.hallAt_ch c a' b' now
    have hPair : hallPair c a b a' b' (s.hallAt c a' b' now) =
        if (s.ch c).tune.countMode.counts a a' then
          countEdge c (edgeDir (s.ch c).tune.polarity (rotationOf a b a' b')) (s.hallAt c a' b' now)
        else s.hallAt c a' b' now := by
      unfold hallPair
      dsimp only
      rw [hCh, if_neg, if_neg]
      · rintro ⟨rfl, rfl⟩
        exact hSingle (by simp)
      · rintro ⟨hA', hB'⟩
        refine hSingle ?_
        cases a <;> cases a' <;> cases b <;> cases b' <;> simp at hA' hB' ⊢
    rw [hPair] at hExec
    cases hk : (s.ch c).tune.countMode.counts a a' with
    | true =>
      rw [if_pos hk, countEdge_idle (by rw [hCh]; exact hState) (by rw [hCh]; exact hBridge)
        (by rw [hCh]; exact hPhase) (by rw [hCh]; exact fun h => nomatch hDatum.symm.trans h.1), hCh,
        State.hallAt_setCh, flush_of_noneDue] at hExec
      · refine ⟨_, hExec, ?_⟩
        intro counted inc p
        have hCounted : counted = true := hk
        clear_value counted
        subst hCounted
        refine ⟨?_, ?_, ?_, ?_, ?_, rfl, ?_, (setCh_oneChannel c _ { s with clock := now }).others, rfl⟩ <;>
          rw [State.ch_setCh_self]
        · dsimp only
          rw [edgeDir_rotationOf _ _ _ _ _ hSingle]
          split <;> rfl
        · exact (Bool.or_true _).symm
        · rfl
      · exact oneChannel.noneDue (setCh_oneChannel c _ { s with clock := now }) (by exact hs)
          ((congrArg Channel.statusDue (State.ch_setCh_self _ c _)).trans (hs.due c))
    | false =>
      rw [if_neg (by rw [hk]; nofun), flush_of_noneDue (hs.hallAt c a' b' now)] at hExec
      refine ⟨_, hExec, ?_⟩
      intro counted inc p
      have hCounted : counted = false := hk
      clear_value counted
      subst hCounted
      refine ⟨?_, ?_, ?_, ?_, ?_, rfl, ?_, (hallAt_oneChannel s c a' b' now).others, rfl⟩ <;> rw [hCh]
      · rfl
      · exact (Bool.or_false _).symm
      · rfl
  case still =>
    intro s c stable hs
    have hExec : exec (.hallTransition c (s.ch c).hallA.level (s.ch c).hallB.level stable) s =
        .next (flush (sampleHall c (s.ch c).hallA.level (s.ch c).hallB.level stable s)) := rfl
    rw [sampleHall_still, flush_of_noneDue (hs.hallAt c _ _ _)] at hExec
    have hCh := s.hallAt_ch c (s.ch c).hallA.level (s.ch c).hallB.level
      (max s.clock ((s.ch c).hallSampled + 1) + stable)
    refine ⟨_, hExec, ?_, ?_, ?_, (hallAt_oneChannel s c _ _ _).others, rfl⟩ <;> rw [hCh]

end Sys2Proof.Machine
end

section
/-! PROOFS. The edge of a settling channel and the overtravel (R7 to R17, R29, R39). -/

namespace Sys2Proof.Machine
section
variable {s t : State} {c : Chan} {u x : Channel} {d : Dir} {g : GlobalTuning} {rev speed : Bool}

theorem countFault_counts {m : CounterMode} {th n : Nat} (h : n < 255) (f : Bool) :
    (countFault m th f n).1 = n + if f then 1 else 0 := by
  cases f with
  | false => rfl
  | true =>
    simp only [countFault, if_true]
    unfold raiseCounter
    exact if_pos (by exact h)

theorem Channel.belowTh_of_low (hRev : u.reverseFaults < 255) (hSpeed : u.speedFaults < 255)
    (hRevTh : u.reverseFaults + 1 ≠ g.th) (hSpeedTh : u.speedFaults + 1 ≠ g.th) : u.belowTh g false rev speed := by
  have hRaise {n : Nat} (hn : n < 255) : raiseCounter g.counterMode n = n + 1 := by
    unfold raiseCounter
    exact if_pos (by exact hn)
  exact ⟨Bool.noConfusion, fun _ => hRaise hRev ▸ hRevTh, fun _ => hRaise hSpeed ▸ hSpeedTh⟩

/-- A running motion without an end condition takes its duty anew (R87, R88). -/
theorem driveEdge_running (hState : (s.ch c).mstate = .running) (hOpen : (s.ch c).motionEnd = none) :
    driveEdge c s = s.setCh c (s.ch c).refreshDuty := by
  unfold driveEdge
  simp only [hState, hOpen]
  rfl

/-- A channel that takes an edge as a settle edge (R29, R39). -/
def Channel.settles (now : Nat) (u : Channel) : Channel :=
  { u with stallTimer := some (now / 1000 + u.tune.ts), settled := u.settled + 1, trips := 0 }

/-- The edge report of a RUNNING channel that still settles, its strip not judged (R29, R39, R87). -/
theorem edgeReport_settling (hState : x.mstate = .running) (hBridge : x.bridge = d.bridge)
    (hStrip : x.tune.stripEnable = false) (hSettling : x.settled < x.tune.ms) (hFew : x.settled < 63)
    (hOpen : x.motionEnd = none) (closing : Bool) (period : Option Nat) :
    edgeReport c closing period (s.setCh c x) = s.setCh c (x.settles s.clock).refreshDuty := by
  have hRestart : x.restartStall s.clock = { x with stallTimer := some (s.ms + x.tune.ts) } := by
    unfold Channel.restartStall
    exact if_pos (by rw [hBridge, d.bridge_dir]; rfl)
  have hUntripped : ({ x with stallTimer := some (s.ms + x.tune.ts) } : Channel).stripTrips ≠ true := fun h => by
    obtain ⟨hEnabled, -⟩ := (Channel.stripTrips_iff _).1 h
    exact absurd (hStrip.symm.trans hEnabled) nofun
  have hDetect (volts arough : Nat) : ({ x with stallTimer := some (s.ms + x.tune.ts) } : Channel).detect volts arough
      closing period = ({ x with
        stallTimer := some (s.ms + x.tune.ts), settled := x.settled + 1, trips := 0 }, false) := by
    have hMin : min 63 (x.settled + 1) = x.settled + 1 := by omega
    unfold Channel.detect
    rw [if_neg (fun h => h hState)]
    refine (if_pos (by exact hSettling)).trans ?_
    rw [show Config.maxSettle = 63 from rfl, hMin]
  unfold edgeReport
  dsimp only
  rw [State.modCh, State.ch_setCh_self, setCh_setCh, show (s.setCh c x).clock = s.clock from rfl, hRestart,
    judgeStrip_untripped (by rw [State.ch_setCh_self]; exact Bool.eq_false_iff.2 hUntripped)]
  unfold detectEdge
  rw [State.ch_setCh_self, hDetect]
  simp only [Bool.false_eq_true, if_false, setCh_setCh]
  rw [driveEdge_running (by rw [State.ch_setCh_self]; exact hState) (by rw [State.ch_setCh_self]; exact hOpen),
    State.ch_setCh_self, setCh_setCh]
  rfl

/-- A channel that counts an edge, its faults counted. -/
def Channel.judged (g : GlobalTuning) (now : Nat) (d : Dir) (u : Channel) : Channel :=
  (u.stepped now d).faulted g false (u.reverseFault now d) (u.speedFault now)

/-- An edge whose faults stay below Th. -/
theorem countEdge_judged (hRev : (s.ch c).reverseFaults < 255) (hSpeed : (s.ch c).speedFaults < 255)
    (hRevTh : (s.ch c).reverseFaults + 1 ≠ s.globals.th) (hSpeedTh : (s.ch c).speedFaults + 1 ≠ s.globals.th) :
    countEdge c d s = edgeReport c ((s.ch c).closes d) ((s.ch c).edgePeriod s.clock)
      (checkOvertravel c (s.setCh c ((s.ch c).judged s.globals s.clock d))) := by
  have hBelow (rev speed : Bool) : ((s.ch c).stepped s.clock d).belowTh s.globals false rev speed :=
    Channel.belowTh_of_low hRev hSpeed hRevTh hSpeedTh
  rw [countEdge_eq, countFaults_setCh (hBelow _ _)]
  rfl

theorem Channel.refreshDuty_exists (u : Channel) : ∃ n, u.refreshDuty = { u with duty := n } := by
  unfold Channel.refreshDuty
  split
  · exact ⟨_, rfl⟩
  · exact ⟨u.duty, rfl⟩

end

section
variable {u : Channel} {g : GlobalTuning} {now : Nat} {d : Dir}

/-- A channel that an edge takes out of its travel, not yet stopped (R17). -/
def Channel.overtravelled (g : GlobalTuning) (now : Nat) (d : Dir) (u : Channel) : Channel :=
  (u.judged g now d).setDatum .unreferenced

theorem Channel.coherent.overtravelled (h : u.coherent) : (u.overtravelled g now d).coherent := by
  refine h.congr ?_ (.inr rfl)
  have hPhase : (u.overtravelled g now d).phase.map (·.dir) = u.phase.map (·.dir) := by
    change (u.phase.map fun ph => { ph with edgeSeen := true }).map (·.dir) = _
    rw [Option.map_map]
    rfl
  unfold Channel.drive
  rw [hPhase]
  rfl

/-- What a stop of every motion makes of a channel that is IDLE or drives, beside its motion. -/
theorem Channel.stopped_rest {cause : StopCause} (hAll : cause.stopsAll = true)
    (hState : u.mstate = .idle ∨ u.mstate = .starting ∨ u.mstate = .running ∨ u.mstate = .reversing) :
    (u.stopped now cause).summary = u.summary ∧ (u.stopped now cause).stepFaults = u.stepFaults ∧
    (u.stopped now cause).strikes = u.strikes ∧ (u.stopped now cause).zones = u.zones := by
  unfold Channel.stopped
  obtain h | h | h | h := hState <;> simp [h, hAll, Channel.cutReversal]

theorem Channel.stopReport_still {cause : StopCause} (hAll : cause.stopsAll = true)
    (hState : u.mstate = .idle ∨ u.mstate = .starting ∨ u.mstate = .running ∨ u.mstate = .reversing) :
    u.stopReport cause = if u.mstate = .reversing then some (stopOutcome cause true) else none := by
  unfold Channel.stopReport
  obtain h | h | h | h := hState <;> simp [h, hAll]

/-- Where a stop of every motion leaves a channel that is IDLE or drives. -/
theorem Channel.coherent.stopped_still {cause : StopCause} (h : u.coherent) (hAll : cause.stopsAll = true)
    (hState : u.mstate = .idle ∨ u.mstate = .starting ∨ u.mstate = .running ∨ u.mstate = .reversing) :
    (u.stopped now cause).mstate.driving = false ∧ (u.stopped now cause).bridge.dir = none ∧
    if u.mstate = .idle then u.stopped now cause = u
    else (u.stopped now cause).mstate = .braking ∧ (u.stopped now cause).bridge = .brake ∧
      (u.stopped now cause).stopCause = cause ∧ (u.stopped now cause).owner = none ∧
      (u.stopped now cause).motion.bind (·.braking) = some ⟨.none, true⟩ := by
  obtain ⟨hOwner, hDrives⟩ := h.stopped_unowned hAll now
  have hOff : (u.stopped now cause).bridge.dir = none := by
    simpa [Channel.drives] using hDrives
  obtain hIdle | hDriving := hState
  · have hSame : u.stopped now cause = u := by
      unfold Channel.stopped
      simp only [hIdle]
    exact ⟨by rw [hSame, hIdle]; rfl, hOff, by rw [if_pos hIdle]; exact hSame⟩
  · obtain ⟨hTo, hCause, hBridge, hBraking, -⟩ := h.stopped_brakes (now := now) hAll
      (hDriving.imp_right (Or.imp_right .inl))
    have hNot : u.mstate ≠ .idle := by obtain h | h | h := hDriving <;> rw [h] <;> nofun
    exact ⟨by rw [hTo]; rfl, hOff, by rw [if_neg hNot]; exact ⟨hTo, hBridge, hCause, hOwner, hBraking⟩⟩

end

/-- The outcomes written read the list and, of each channel, its record and its position. -/
theorem outcomesWritten_congr {s t : State} (o : Chan → Option ReversalOutcome) (hList : t.incidents = s.incidents)
    (hCh : ∀ c, (t.ch c).motion = (s.ch c).motion ∧ (t.ch c).position = (s.ch c).position) :
    outcomesWritten o t = outcomesWritten o s := by
  have hMotion (c : Chan) : (t.ch c).motion = (s.ch c).motion := (hCh c).1
  have hPosition (c : Chan) : (t.ch c).position = (s.ch c).position := (hCh c).2
  unfold outcomesWritten
  simp only [hList, hMotion, hPosition]

/-- The list after the turn of the one channel that an overtravel reaches. -/
theorem turn_reported {s : State} {c : Chan} {y z : Channel} {o : Option ReversalOutcome}
    (hMotion : y.motion = (s.ch c).motion) : ((s.setCh c y).turn c z false o).incidents =
      outcomesWritten (fun x => if x = c then o else none) (s.modCh c fun u => { u with position := y.position }) := by
  have hCh (x : Chan) : ((s.setCh c y).ch x).motion = ((s.modCh c fun u => { u with position := y.position }).ch x).motion ∧
      ((s.setCh c y).ch x).position = ((s.modCh c fun u => { u with position := y.position }).ch x).position := by
    by_cases hx : x = c
    · subst hx
      rw [State.ch_setCh_self, State.ch_modCh_self]
      exact ⟨hMotion, rfl⟩
    · rw [State.ch_setCh_ne s y hx, State.modCh, State.ch_setCh_ne s _ hx]
      exact ⟨rfl, rfl⟩
  cases o with
  | none =>
    have hNone : (fun x => if x = c then (none : Option ReversalOutcome) else none) = fun _ => none := by
      funext x; split <;> rfl
    rw [hNone, outcomesWritten_none]
    rfl
  | some o => exact (reportOutcome_written c o (s.setCh c y)).trans (outcomesWritten_congr _ rfl hCh)

/-- Settles O11: a counted edge of a settling channel and of a REFERENCED one. -/
theorem runningEdgeIsJudged : Obligations.RunningEdgeIsJudged := by
  unfold Obligations.RunningEdgeIsJudged
  refine ⟨?settling, ?travel⟩
  case settling =>
    intro s c d ph hState hPhase hBridge hDatum hStrip hSettling hFew hOpen hRev hSpeed hRevTh hSpeedTh t age period
    have hPeriod : (s.ch c).edgePeriod s.clock = period := by
      rw [Channel.edgePeriod, hPhase]; rfl
    have hSpeedFault : (s.ch c).speedFault s.clock = true ↔ ∃ p, period = some p ∧ p < (s.ch c).tune.pmin := by
      rw [Channel.speedFault, hPeriod]
      cases period <;> simp
    have hReverse : (s.ch c).reverseFault s.clock d = true ↔ d ≠ ph.dir ∧ 30000 < s.clock - ph.began := by
      rw [Channel.reverseFault, hPhase]
      rw [Bool.and_eq_true, decide_eq_true_eq, decide_eq_true_eq]
      rfl
    obtain ⟨n, hDuty⟩ := Channel.refreshDuty_exists (((s.ch c).judged s.globals s.clock d).settles s.clock)
    have hTo : t = s.setCh c { ((s.ch c).judged s.globals s.clock d).settles s.clock with duty := n } := by
      refine (countEdge_judged hRev hSpeed hRevTh hSpeedTh).trans ?_
      rw [checkOvertravel_inside, edgeReport_settling (x := (s.ch c).judged s.globals s.clock d) (d := ph.dir) hState
        hBridge hStrip hSettling hFew (hOpen _), hDuty]
      rw [State.ch_setCh_self]
      exact fun h => nomatch hDatum.symm.trans h.1
    clear_value t
    subst hTo
    refine ⟨?_, ?_, ?_, ?_, ?_, ?_, ?_, ?_, ?_, ?_, ?_, ?_, ?_, ?_, (setCh_oneChannel c _ s).others, rfl⟩ <;>
      rw [State.ch_setCh_self]
    case refine_4 => exact congrArg (Option.map _) hPhase
    case refine_5 =>
      refine (countFault_counts hSpeed _).trans ?_
      simp only [hSpeedFault]
    case refine_6 =>
      refine (countFault_counts hRev _).trans ?_
      simp only [hReverse]
    case refine_13 => exact hState
    all_goals rfl
  case travel =>
    intro s c d u p lt out t hCoherent hDatum
    have hOut : outOfTravel u.tune p = true ↔ out := by
      have hLt : ((u.tune.ltUsed : Nat) : Int) = lt := by
        rw [ChanTuning.ltUsed_nat]
        simp only [lt]
        split <;> rfl
      simp only [outOfTravel, hLt, Bool.or_eq_true, decide_eq_true_eq, out]
    refine ⟨fun hOutside hRev hSpeed hRevTh hSpeedTh hState => ?outside, fun hInside hIdle => ?inside⟩
    case inside =>
      have hBridge : u.bridge = .off := by
        have hFollows := hCoherent.bridge
        simp only [Channel.bridgeFollows, hIdle] at hFollows
        exact hFollows.1
      have hPhase : u.phase = none := (hCoherent.bridged.off (by rw [hBridge]; rfl)).1
      have hTo : t = s.setCh c { u with position := p, edged := true, lastEdge := some s.clock, trips := 0 } :=
        countEdge_idle hIdle hBridge hPhase fun h => hInside (hOut.1 h.2)
      clear_value t
      subst hTo
      refine ⟨?_, ?_, ?_, ?_, (setCh_oneChannel c _ s).others, rfl⟩ <;> rw [State.ch_setCh_self]
    case outside =>
      have hBack := hCoherent.overtravelled (g := s.globals) (now := s.clock) (d := d)
      have hReport : (u.overtravelled s.globals s.clock d).stopReport .overtravel =
          if u.mstate = .reversing then some .hall else none := Channel.stopReport_still rfl hState
      have hStays : decide ((u.overtravelled s.globals s.clock d).mstate = .queued) = false := by
        change decide (u.mstate = .queued) = false
        obtain h | h | h | h := hState <;> simp [h]
      have hTurn : checkOvertravel c (s.setCh c (u.judged s.globals s.clock d)) =
          (s.setCh c (u.overtravelled s.globals s.clock d)).turn c
            ((u.overtravelled s.globals s.clock d).stopped s.clock .overtravel) false
            (if u.mstate = .reversing then some .hall else none) := by
        rw [checkOvertravel_outside (x := u.judged s.globals s.clock d) hDatum (hOut.2 hOutside), stopRequest_turn,
          State.ch_setCh_self]
        rw [← hReport, ← hStays]
        rfl
      obtain ⟨hStill, hOff, hEnd⟩ := hBack.stopped_still (now := s.clock) (cause := .overtravel) rfl hState
      obtain ⟨hSummary, hFaults, hStrikes, hZones⟩ := Channel.stopped_rest
        (u := u.overtravelled s.globals s.clock d) (now := s.clock) (cause := .overtravel) rfl hState
      have hPosition := Channel.stopped_position (u.overtravelled s.globals s.clock d) s.clock .overtravel
      have hLost := Channel.stopped_datum (cause := .overtravel) (u := u.overtravelled s.globals s.clock d)
        (by nofun : Datum.unreferenced ≠ .seeking) s.clock
      generalize hz : (u.overtravelled s.globals s.clock d).stopped s.clock .overtravel = z at *
      generalize hw : (s.setCh c (u.overtravelled s.globals s.clock d)).turn c z false
        (if u.mstate = .reversing then some .hall else none) = w at hTurn
      have hCh : w.ch c = z := by rw [← hw]; exact State.turn_ch_self
      have hTo : t = w.setCh c { z with trips := 0 } := by
        refine (countEdge_judged hRev hSpeed hRevTh hSpeedTh).trans ?_
        rw [hTurn, edgeReport_still (by rw [hCh]; exact hStill) (by rw [hCh]; exact hOff), hCh]
      have hAt : t.ch c = { z with trips := 0 } := by rw [hTo]; exact State.ch_setCh_self _ c _
      refine ⟨?_, ?_, ?_, ?_, ?_, ?_, ?_, ?_, ?_, ?_⟩
      · rw [hAt]; exact hPosition
      · rw [hAt]; exact hLost
      · rw [hAt]; exact hSummary
      · rw [hAt]; exact hFaults
      · rw [hAt]; exact hStrikes
      · rw [hAt]; exact hZones
      · rw [hAt]
        split
        · next hIdle =>
          rw [if_pos (by exact hIdle)] at hEnd
          rw [hEnd]
          exact ⟨hIdle, rfl⟩
        · next hNot =>
          rw [if_neg (by exact hNot)] at hEnd
          exact hEnd
      · have hList : t.incidents = w.incidents := by rw [hTo]; rfl
        rw [hList, ← hw, turn_reported (s := s) (c := c) (y := u.overtravelled s.globals s.clock d) rfl]
        refine congrArg (outcomesWritten · _) (funext fun x => ?_)
        by_cases hx : x = c <;> simp [hx]
      · intro x hx
        rw [hTo, State.ch_setCh_ne w _ hx, ← hw, State.turn_ch_ne hx, State.ch_setCh_ne s _ hx]
      · rw [hTo, ← hw]; rfl

end Sys2Proof.Machine
end

section
/-! PROOFS. The per-edge computation and its PINCH (R27 to R38, R47). -/

namespace Sys2Proof.Machine
section
variable {u : Channel} {volts arough p a : Nat} {closing : Bool}

/-- The reference of the zone of the moment is unlearned (R34). -/
def Channel.reference (u : Channel) : Nat := u.zones.getD (zoneOf u.tune u.position) 0

/-- The force of the ring's average (R34, R35). -/
def Channel.force (u : Channel) : Nat :=
  forceOf (u.ring.sum / u.tune.n) (if u.reference = 0 then u.tune.pdef else u.reference) u.tune.kf

/-- The threshold of the moment (R36). -/
def Channel.threshold (arough : Nat) (u : Channel) : Nat :=
  thresholdOf u.tune.tb arough (if u.reference = 0 then u.tune.mu else 0)
    (if u.strikes = 3 ∧ u.motion.map (·.mode) = some .hold then u.tune.mo else 0)

/-- Stages 3 to 6: results, accumulator, trip count and PINCH (R34 to R38). -/
theorem Channel.qualify_eq (arough : Nat) (closing : Bool) (u : Channel) : u.qualify arough closing =
    ({ u with
      lastF := u.force, lastT := u.threshold arough
      accum := if u.armed closing then accumulate (zoneOf u.tune u.position) (u.ring.sum / u.tune.n) u.accum else u.accum
      trips := if u.armed closing = true ∧ u.threshold arough ≤ u.force ∧ u.trips + 1 < u.tune.q then u.trips + 1 else 0 },
    u.armed closing && decide (u.threshold arough ≤ u.force) && decide (u.tune.q ≤ u.trips + 1)) := by
  change (if (u.armed closing && decide (u.threshold arough ≤ u.force)) = true then
      if u.tune.q ≤ u.trips + 1 then _ else _
    else _) = _
  have hFew : u.trips + 1 < u.tune.q ↔ ¬u.tune.q ≤ u.trips + 1 := Nat.not_le.symm
  by_cases hTrips : u.armed closing = true ∧ u.threshold arough ≤ u.force
  · obtain ⟨hArmed, hOver⟩ := hTrips
    by_cases hQ : u.tune.q ≤ u.trips + 1
    · simp only [hArmed, hOver, hQ, hFew, decide_true, Bool.and_self, if_true, not_true, and_false, if_false]
      rfl
    · simp only [hArmed, hOver, hQ, hFew, decide_true, decide_false, Bool.and_self, Bool.and_false, if_true, if_false,
        not_false_iff, and_self]
      rfl
  · have hNot : (u.armed closing && decide (u.threshold arough ≤ u.force)) = false := by
      rw [Bool.eq_false_iff, Ne, Bool.and_eq_true, decide_eq_true_eq]
      exact hTrips
    rw [hNot, if_neg Bool.false_ne_true, if_neg fun h : _ ∧ _ ∧ _ => hTrips ⟨h.1, h.2.1⟩]
    rfl

theorem Channel.qualify_rest (arough : Nat) (closing : Bool) (u : Channel) :
    { (u.qualify arough closing).1 with lastF := u.lastF, lastT := u.lastT, trips := u.trips, accum := u.accum } = u := by
  rw [Channel.qualify_eq]

/-- A fed edge touches the ring, the results, the trip count and the accumulators only. -/
theorem Channel.fed_rest (volts arough : Nat) (closing : Bool) (p : Nat) (u : Channel) :
    { (u.fed volts arough closing p).1 with
      ring := u.ring, lastF := u.lastF, lastT := u.lastT, trips := u.trips, accum := u.accum } = u := by
  unfold Channel.fed
  dsimp only
  split
  · rfl
  · exact congrArg (fun x : Channel => { x with ring := u.ring }) (Channel.qualify_rest arough closing
      { u with ring := pushRing u.tune.n (correctedPeriod p volts) u.ring })

/-- A ring that stays short of N entries (R33). -/
theorem Channel.fed_filling (h : u.ring.length + 1 < u.tune.n) : u.fed volts arough closing p =
    ({ u with ring := u.ring ++ [correctedPeriod p volts], trips := 0 }, false) := by
  have hPush : pushRing u.tune.n (correctedPeriod p volts) u.ring = u.ring ++ [correctedPeriod p volts] := by
    unfold pushRing
    exact if_neg (by simp; omega)
  unfold Channel.fed
  simp only [hPush]
  exact if_pos (by simpa using h)

/-- The ring at the edge that fills it and at every later one (R33). -/
theorem pushRing_full {n pc : Nat} {ring : List Nat} (hn : 1 ≤ n) (h : ring.length = n ∨ ring.length + 1 = n) :
    pushRing n pc ring = (if ring.length = n then ring.tail else ring) ++ [pc] ∧ (pushRing n pc ring).length = n := by
  unfold pushRing
  dsimp only
  obtain h | h := h
  · obtain ⟨x, l, rfl⟩ := List.exists_cons_of_length_pos (l := ring) (by omega)
    have hl : l.length + 1 = n := by simpa using h
    rw [if_pos (by simp; omega)]
    simp [hl]
  · rw [if_neg (by simp; omega), if_neg (by omega)]
    simp [h]

/-- A full ring is qualified (R34 to R38). -/
theorem Channel.fed_full (hn : 1 ≤ u.tune.n) (h : u.ring.length = u.tune.n ∨ u.ring.length + 1 = u.tune.n) :
    u.fed volts arough closing p =
      ({ u with ring := pushRing u.tune.n (correctedPeriod p volts) u.ring }).qualify arough closing := by
  obtain ⟨-, hLength⟩ := pushRing_full (pc := correctedPeriod p volts) hn h
  unfold Channel.fed
  exact if_neg (by simp [hLength])

/-- The stage is armed at a closing edge inside the band (R31). -/
def Channel.armedAt (closing : Bool) (u : Channel) : Prop :=
  u.mstate = .running ∧ u.datum = .referenced ∧ closing = true ∧ u.tune.s < u.position.natAbs ∧
    u.position.natAbs ≤ u.tune.b ∧ u.tune.ms ≤ u.settled

theorem Channel.armed_iff (h : u.ring.length = u.tune.n) : u.armed closing = true ↔ u.armedAt closing := by
  simp only [Channel.armed, Channel.armedAt, h, decide_true, Bool.and_true, Bool.and_eq_true, decide_eq_true_eq]
  tauto

end

/-- A PINCH at a fed edge (R37, R47, R48, R94, R152). -/
theorem detectEdge_pinched {s : State} {c : Chan} {closing : Bool} {p : Nat} (hState : (s.ch c).mstate = .running)
    (hSettled : (s.ch c).tune.ms ≤ (s.ch c).settled) : detectEdge c closing (some p) s =
      let x := (s.ch c).fed s.volts (s.globals.arough s.roughness) closing p
      if x.2 then declareIncident c .pinch (some (x.1.lastF, x.1.lastT)) (s.setCh c x.1) else s.setCh c x.1 := by
  have hDetect : (s.ch c).detect s.volts (s.globals.arough s.roughness) closing (some p) =
      (s.ch c).fed s.volts (s.globals.arough s.roughness) closing p := by
    unfold Channel.detect
    rw [if_neg fun h => h hState, if_neg (Nat.not_lt.2 hSettled)]
  unfold detectEdge
  rw [hDetect]

theorem detectEdge_unfed {s : State} {c : Chan} {closing : Bool} {period : Option Nat} {x : Channel}
    (h : (s.ch c).detect s.volts (s.globals.arough s.roughness) closing period = (x, false)) :
    detectEdge c closing period s = s.setCh c x := by
  unfold detectEdge
  rw [h]
  rfl

theorem arough_eq {g : GlobalTuning} {rough : Nat} (h : rough ≤ 3) : g.arough rough =
    if rough = 0 then 0 else if rough = 1 then g.arough1 else if rough = 2 then g.arough2 else g.arough3 := by
  match rough, h with
  | 0, _ => rfl
  | 1, _ => rfl
  | 2, _ => rfl
  | 3, _ => rfl

/-- What a fed edge leaves as it was. -/
theorem Channel.fed_kept (volts arough : Nat) (closing : Bool) (p : Nat) (u : Channel) :
    let x := (u.fed volts arough closing p).1
    x.mstate = u.mstate ∧ x.motion = u.motion ∧ x.owner = u.owner ∧ x.strikes = u.strikes ∧
      x.position = u.position ∧ x.zones = u.zones ∧ x.tune = u.tune := by
  have hRest := Channel.fed_rest volts arough closing p u
  intro x
  have hRead := congrArg (fun v : Channel => (v.mstate, v.motion, v.owner, v.strikes, v.position, v.zones, v.tune)) hRest
  simpa only [Prod.mk.injEq] using hRead

/-- The PINCH of a channel that an edge has made `x` (R37, R47, R48, R94, R152). -/
theorem pinch_declared {s : State} {c : Chan} {x : Channel} {m : Motion} {o : Owner} (force : Nat × Nat)
    (hKept : x.mstate = (s.ch c).mstate ∧ x.motion = (s.ch c).motion ∧ x.owner = (s.ch c).owner ∧
      x.strikes = (s.ch c).strikes ∧ x.position = (s.ch c).position ∧ x.zones = (s.ch c).zones ∧
      x.tune = (s.ch c).tune)
    (hState : (s.ch c).mstate = .running) (hMotion : (s.ch c).motion = some m) (hOwner : (s.ch c).owner = some o) :
    let t := declareIncident c .pinch (some force) (s.setCh c x)
    t.incidents = (if s.incidents.length < 8 then s.incidents else s.incidents.drop 1) ++
      [⟨s.nextRef, s.partTime, c, .pinch, (s.ch c).position, zoneOf (s.ch c).tune (s.ch c).position, some force,
        s.volts, s.roughness, o.slot, m.mode, min 3 ((s.ch c).strikes + 1), none⟩] ∧
    (t.ch c).mstate = .braking ∧ (t.ch c).bridge = .brake ∧ (t.ch c).stopCause = .pinch ∧
    (t.ch c).owner = none ∧ (t.ch c).motion.bind (·.braking) = some ⟨.reversal, false⟩ ∧
    (t.ch c).strikes = min 3 ((s.ch c).strikes + 1) ∧ (t.ch c).trips = 0 ∧ (t.ch c).ring = x.ring ∧
    (t.ch c).lastF = x.lastF ∧ (t.ch c).lastT = x.lastT ∧ (t.ch c).accum = x.accum ∧
    (t.ch c).position = (s.ch c).position ∧ (t.ch c).zones = (s.ch c).zones ∧ othersKept c s t ∧
    { t with
      channels := s.channels, incidents := s.incidents, nextRef := s.nextRef
      txQueue := s.txQueue, readout := s.readout } = s := by
  intro t
  obtain ⟨hKState, hKMotion, hKOwner, hKStrikes, hKPosition, hKZones, hKTune⟩ := hKept
  have hCh : t.ch c = (x.strike s.clock s.globals.strikeWindow).takeIncident s.clock .pinch s.nextRef := by
    refine (declareIncident_ch c .pinch _ _).trans ?_
    rw [State.ch_setCh_self]
    rfl
  have hList : t.incidents = _ := declareIncident_incidents c .pinch (some force) (s.setCh c x)
  have hOthers : othersKept c s t :=
    ((setCh_oneChannel c x s).trans (declareIncident_oneChannel c .pinch (some force) (s.setCh c x))).others
  have hRest : { t with
      channels := s.channels, incidents := s.incidents, nextRef := s.nextRef
      txQueue := s.txQueue, readout := s.readout } = s := by
    rw [show t = _ from declareIncident_rest c .pinch (some force) (s.setCh c x)]
    rfl
  have hBraking := Channel.takeIncident_braking (u := x.strike s.clock s.globals.strikeWindow) (hKMotion.trans hMotion)
    s.clock .pinch s.nextRef
  have hTrips := Channel.takeIncident_trips (c := x.strike s.clock s.globals.strikeWindow) s.clock .pinch s.nextRef
    (hKState.trans hState)
  clear_value t
  refine ⟨?_, ?_, ?_, ?_, ?_, by rw [hCh]; exact hBraking, ?_, by rw [hCh]; exact hTrips, ?_, ?_, ?_, ?_, ?_, ?_,
    hOthers, hRest⟩
  case refine_1 =>
    rw [hList, incidentOf, State.ch_setCh_self, hKStrikes, hKPosition, hKTune, hKOwner, hKMotion, hOwner, hMotion]
    rfl
  all_goals rw [hCh]; simp [IncidentCause.stop, hKStrikes, hKPosition, hKZones]

/-- Settles O13: the ring, the results and the PINCH of a fed edge, and which edges are fed. -/
theorem fedEdgeIsComputed : Obligations.FedEdgeIsComputed := by
  unfold Obligations.FedEdgeIsComputed
  refine ⟨?computed, ?taken⟩
  case computed =>
    intro u g rough volts p closing hRough x pc
    refine ⟨fun hShort => ?_, fun hn hLength => ?_⟩
    · have hx : x = _ := Channel.fed_filling hShort
      rw [hx]
      exact ⟨rfl, rfl, rfl, rfl⟩
    · intro ring a z pref r0 e f arough override t armed
      obtain ⟨hRing, hFull⟩ := pushRing_full (pc := pc) hn hLength
      have hRest : { x.1 with
          ring := u.ring, lastF := u.lastF, lastT := u.lastT, trips := u.trips, accum := u.accum } = u :=
        Channel.fed_rest volts (g.arough rough) closing p u
      have hx : x = ({ u with ring := pushRing u.tune.n pc u.ring } : Channel).qualify (g.arough rough) closing :=
        Channel.fed_full hn hLength
      have hForce : ({ u with ring := pushRing u.tune.n pc u.ring } : Channel).force = f := by
        have hExcess : e = a - r0 := by
          simp only [e]
          split <;> omega
        simp only [Channel.force, hRing, f, hExcess]
        rfl
      have hThreshold : ({ u with ring := pushRing u.tune.n pc u.ring } : Channel).threshold (g.arough rough) = t := by
        have hMargin : g.arough rough = arough := arough_eq hRough
        simp only [Channel.threshold, hMargin]
        rfl
      have hArmed : ({ u with ring := pushRing u.tune.n pc u.ring } : Channel).armed closing = true ↔ armed :=
        Channel.armed_iff hFull
      have hSum : (pushRing u.tune.n pc u.ring).sum / u.tune.n = a := by rw [hRing]
      generalize hy : ({ u with ring := pushRing u.tune.n pc u.ring } : Channel) = y at hx hForce hThreshold hArmed
      have hSame : y.ring = ring ∧ y.ring.sum / y.tune.n = a ∧ y.accum = u.accum ∧ y.trips = u.trips ∧ y.tune = u.tune ∧
          y.position = u.position := by
        rw [← hy]; exact ⟨hRing, hSum, rfl, rfl, rfl, rfl⟩
      obtain ⟨hRing', hSum', hAccum, hTrips, hTune, hPosition⟩ := hSame
      rw [Channel.qualify_eq, hForce, hThreshold, hSum', hAccum, hTrips, hTune, hPosition] at hx
      refine ⟨by rw [hx]; exact hRing', by rw [hx], by rw [hx], ?_, ?_, ?_, hRest⟩
      · rw [hx]
        simp only [Bool.and_eq_true, decide_eq_true_eq, hArmed, and_assoc]
      · rw [hx]
        simp only [hArmed]
      · rw [hx]
        simp only [hArmed]
        rfl
  case taken =>
    intro s c closing period u t becomes
    have hBecomes {x : Channel} (h : t = s.setCh c x) : becomes x := by
      refine ⟨?_, ?_, ?_⟩
      · rw [h]; exact State.ch_setCh_self s c x
      · rw [h]; exact (setCh_oneChannel c x s).others
      · rw [h]; rfl
    refine ⟨fun hUnfed => ?unfed, fun hState hSettling => ?settling, fun p hPeriod hState hSettled => ?fed⟩
    case unfed =>
      refine hBecomes (detectEdge_unfed ?_)
      unfold Channel.detect
      by_cases hState : u.mstate = .running
      · obtain hNot | ⟨hSettled, rfl⟩ := hUnfed
        · exact absurd hState hNot
        · rw [if_neg fun h => h hState, if_neg (Nat.not_lt.2 hSettled)]
      · exact if_pos hState
    case settling =>
      refine hBecomes (detectEdge_unfed ?_)
      unfold Channel.detect
      rw [if_neg fun h => h hState]
      exact if_pos hSettling
    case fed =>
      subst hPeriod
      intro x
      have hTo : t = if x.2 then declareIncident c .pinch (some (x.1.lastF, x.1.lastT)) (s.setCh c x.1)
        else s.setCh c x.1 := detectEdge_pinched hState hSettled
      refine ⟨fun hNot => hBecomes (hTo.trans (if_neg (by rw [hNot]; nofun))), fun hPinch m hMotion o hOwner => ?_⟩
      rw [if_pos hPinch] at hTo
      have hKept : x.1.mstate = u.mstate ∧ x.1.motion = u.motion ∧ x.1.owner = u.owner ∧ x.1.strikes = u.strikes ∧
          x.1.position = u.position ∧ x.1.zones = u.zones ∧ x.1.tune = u.tune := Channel.fed_kept ..
      clear_value t x
      subst hTo
      exact pinch_declared (x.1.lastF, x.1.lastT) hKept hState hMotion hOwner

end Sys2Proof.Machine
end

section
/-! PROOFS. The agreement of one channel (O6), continued: what waits or is paused, the reversal, the start, grants and
the brake that passes to its follow-on. -/

namespace Sys2Proof.Machine

section
variable {u v : Channel} {now : Nat}

/-! ### Waiting and paused channels -/

/-- What a QUEUED or PAUSED channel in agreement holds. -/
theorem Channel.coherent.resting (h : u.coherent) (hs : u.mstate = .queued ∨ u.mstate = .paused) : ∃ m,
    u.motion = some m ∧ m.braking = none ∧ (m.pausedFrom.isSome = true ↔ u.mstate = .paused) ∧ u.bridge = .off ∧
    u.duty = 0 ∧ u.brakeTimer = none ∧ u.ramp = none ∧ u.runSince = none := by
  obtain ⟨m, hm⟩ := h.motion_some (by obtain hs | hs := hs <;> simp [hs])
  obtain ⟨-, h2, -, -, h5, h6, -, -, h9, h10, h11, -⟩ := h
  refine ⟨m, hm, ?_⟩
  simp only [hm, Option.bind_some] at h5 h6
  unfold Channel.bridgeFollows at h2
  obtain hs | hs := hs <;> simp [hs, MotionState.driving] at h2 h5 h9 h10 h11 <;>
    exact ⟨h5, h6, h2.1, h2.2, h9, h10, h11⟩

/-- The owner of a channel PAUSED from `x`. -/
theorem Channel.coherent.owner_paused (h : u.coherent) (hs : u.mstate = .paused) {m : Motion} {x : PausedFrom}
    (hm : u.motion = some m) (hx : m.pausedFrom = some x) : match x with
      | .motion => u.owned
      | .starting | .running => u.ownedWhole
      | .reversing | .reversal => u.owner = none := by
  have hOwner := h.ownerIs
  unfold Channel.ownerFollows Channel.pausedMaster at hOwner
  simp only [hs, hm, Option.bind_some, hx] at hOwner
  cases x <;> simpa using hOwner

theorem Channel.pausedMaster_iff {m : Motion} (hs : u.mstate = .paused) (hm : u.motion = some m) :
    u.pausedMaster = true ↔
      m.pausedFrom = some .starting ∨ m.pausedFrom = some .running ∨ m.pausedFrom = some .motion := by
  unfold Channel.pausedMaster
  simp only [hs, hm, Option.bind_some]
  cases m.pausedFrom with
  | none => simp
  | some x => cases x <;> simp

theorem Channel.pausedReversal_iff {m : Motion} (hs : u.mstate = .paused) (hm : u.motion = some m) :
    u.pausedReversal = true ↔ m.pausedFrom = some .reversing ∨ m.pausedFrom = some .reversal := by
  unfold Channel.pausedReversal
  simp only [hs, hm, Option.bind_some]
  cases m.pausedFrom with
  | none => simp
  | some x => cases x <;> simp

theorem Channel.pausedReversal_mstate (h : u.pausedReversal = true) : u.mstate = .paused := by
  unfold Channel.pausedReversal at h
  simp only [Bool.and_eq_true, decide_eq_true_eq] at h
  exact h.1

/-- A PAUSED channel holds a master motion or a reversal (R105). -/
theorem Channel.coherent.paused_cases (h : u.coherent) (hs : u.mstate = .paused) :
    (u.pausedMaster = true ∧ u.pausedReversal = false ∧ u.owned) ∨
      (u.pausedReversal = true ∧ u.pausedMaster = false ∧ u.owner = none) := by
  obtain ⟨m, hm, -, hPaused, -⟩ := h.resting (.inr hs)
  obtain ⟨x, hx⟩ := Option.isSome_iff_exists.1 (hPaused.2 hs)
  have hOwner := h.owner_paused hs hm hx
  rw [← Bool.not_eq_true, ← Bool.not_eq_true, Channel.pausedMaster_iff hs hm, Channel.pausedReversal_iff hs hm, hx]
  cases x with
  | motion => exact .inl ⟨by simp, by simp, hOwner⟩
  | starting => exact .inl ⟨by simp, by simp, Channel.ownedWhole.owned hOwner⟩
  | running => exact .inl ⟨by simp, by simp, Channel.ownedWhole.owned hOwner⟩
  | reversing => exact .inr ⟨by simp, by simp, hOwner⟩
  | reversal => exact .inr ⟨by simp, by simp, hOwner⟩

/-- The same motion under another record of it that keeps what an ownership is made of. -/
theorem Channel.owned.congr {m n : Motion} (h : u.owned) (hm : u.motion = some m) (hn : v.motion = some n)
    (ho : v.owner = u.owner) (hOwner : n.owner = m.owner) (hMode : n.mode = m.mode) (hGoal : n.goal = m.goal) :
    v.owned := by
  obtain ⟨i, d, hi, hu⟩ := (Channel.owned_iff hm).1 h
  exact (Channel.owned_iff hn).2 ⟨i, d, hOwner.trans hi, by rw [ho, hu, hMode, hGoal]⟩

theorem Channel.ownerGoal.congr (h : u.ownerGoal) (ho : v.owner = u.owner) : v.ownerGoal := by
  unfold Channel.ownerGoal at h ⊢; rw [ho]; exact h

/-- A paused master motion that resumes waits in the start queue (R105). -/
theorem Channel.coherent.resume (h : u.coherent) (hp : u.pausedMaster = true) : u.resume.coherent := by
  have hs := Channel.pausedMaster_mstate hp
  obtain ⟨m, hm, hBrakes, -, hBridge, hDuty, hBrake, hRamp, hRun⟩ := h.resting (.inr hs)
  obtain ⟨-, -, hOwned⟩ | ⟨-, hNot, -⟩ := h.paused_cases hs
  · have hRecord : u.resume.motion = some { m with pausedFrom := none } := by simp [Channel.resume, hm]
    exact Channel.coherent_queued (by simp [Channel.resume]) hRecord hBrakes rfl hBridge hDuty
      (h.bridged.congr rfl rfl rfl) (hOwned.congr hm hRecord rfl rfl rfl rfl) h.ownerGoal h.hold hBrake hRamp hRun
  · exact absurd hp (by simp [hNot])

/-! ### Reversing -/

section
variable (u : Channel) (now : Nat)

@[simp] theorem Channel.toReversing_mstate : u.toReversing.mstate = .reversing := rfl
@[simp] theorem Channel.toReversing_bridge : u.toReversing.bridge = u.bridge := rfl
@[simp] theorem Channel.toReversing_phase : u.toReversing.phase = u.phase := rfl
@[simp] theorem Channel.toReversing_stallTimer : u.toReversing.stallTimer = u.stallTimer := rfl
@[simp] theorem Channel.toReversing_owner : u.toReversing.owner = u.owner := rfl
@[simp] theorem Channel.toReversing_holdTimer : u.toReversing.holdTimer = u.holdTimer := rfl
@[simp] theorem Channel.toReversing_ramp : u.toReversing.ramp = u.ramp := rfl
@[simp] theorem Channel.toReversing_brakeTimer : u.toReversing.brakeTimer = none := rfl

theorem Channel.toReversing_motion {m : Motion} (hm : u.motion = some m) : u.toReversing.motion =
    some { m with braking := none, pausedFrom := none, runTime := 0 } := by
  simp [Channel.toReversing, hm]

@[simp] theorem Channel.driveReversal_holdTimer (d : Dir) : (u.driveReversal now d).holdTimer = u.holdTimer := by
  simp [Channel.driveReversal]

@[simp] theorem Channel.driveReversal_ramp (d : Dir) : (u.driveReversal now d).ramp = u.ramp := by
  simp [Channel.driveReversal]

@[simp] theorem Channel.pauseAfterBrake_ramp (x : PausedFrom) : (u.pauseAfterBrake now x).ramp = u.ramp := by
  simp [Channel.pauseAfterBrake]

@[simp] theorem Channel.pauseAfterBrake_runSince (x : PausedFrom) :
    (u.pauseAfterBrake now x).runSince = u.runSince := by
  simp [Channel.pauseAfterBrake]

end

theorem Channel.bridged.driveReversal (h : u.bridged) (now : Nat) (d : Dir) : (u.driveReversal now d).bridged := by
  unfold Channel.driveReversal
  exact Channel.bridged.setBridge (h.congr (by simp) (by simp) (by simp)) ..

theorem Channel.bridged.pauseAfterBrake (h : u.bridged) (now : Nat) (x : PausedFrom) :
    (u.pauseAfterBrake now x).bridged := by
  unfold Channel.pauseAfterBrake
  exact Channel.bridged.setBridge (h.congr (by simp) (by simp) (by simp)) ..

/-- A paused or braked reversal, its owner released, leaves its channel in agreement where it drives. -/
theorem Channel.coherent_driveReversal {m : Motion} (hm : u.motion = some m) (hBridged : u.bridged)
    (ho : u.owner = none) (hh : u.holdTimer = none) (hRamp : u.ramp = none) :
    (u.driveReversal now m.dir).coherent :=
  Channel.coherent_reversing (by simp) (m := { m with braking := none, pausedFrom := none, runTime := 0 })
    (by rw [Channel.driveReversal_motion, hm]; rfl) rfl rfl (by simp) (hBridged.driveReversal ..) (by simpa using ho)
    (by simpa using hh) (by simp) (by simpa using hRamp) (by simp)

/-- A reversal that ends through BRAKING (R97). -/
theorem Channel.coherent_cutReversal {m : Motion} (hm : u.motion = some m) (hBridged : u.bridged)
    (ho : u.owner = none) (hh : u.holdTimer = none) (x : StopCause) : (u.cutReversal now x).coherent :=
  Channel.coherent_enterBraking hm (hBridged.congr rfl rfl rfl) ho hh (by simp)

/-- A reversal whose target is reached where it begins (R96). -/
theorem Channel.coherent_completed {m : Motion} (hm : u.motion = some m) (hBridged : u.bridged)
    (ho : u.owner = none) (hh : u.holdTimer = none) : (u.completed now).coherent :=
  Channel.coherent_enterBraking (u.toReversing_motion hm) (hBridged.congr (by simp) (by simp) (by simp))
    (by simpa using ho) (by simpa using hh) (by simp)

/-- What waits for the line after its brake (R92). -/
theorem Channel.coherent_pauseAfterBrake {m : Motion} {x : PausedFrom} (hm : u.motion = some m) (hBridged : u.bridged)
    (ho : match x with
      | .motion => u.owned
      | .starting | .running => False
      | .reversing | .reversal => u.owner = none)
    (hg : u.ownerGoal) (hh : u.holdTimer.isSome = true ↔ u.owner.map (·.mode) = some .hold) (hRamp : u.ramp = none)
    (hRun : u.runSince = none) : (u.pauseAfterBrake now x).coherent := by
  have hRecord : (u.pauseAfterBrake now x).motion = some { m with braking := none, pausedFrom := some x } := by
    rw [Channel.pauseAfterBrake_motion, hm]; rfl
  have hOwner : (u.pauseAfterBrake now x).owner = u.owner := by simp
  refine Channel.coherent_paused (x := x) (by simp) hRecord rfl rfl (by simp) (by simp) (hBridged.pauseAfterBrake ..) ?_
    (hg.congr hOwner) (by simpa using hh) (by simp) (by simpa using hRamp) (by simpa using hRun)
  cases x with
  | motion => exact Channel.owned.congr ho hm hRecord hOwner rfl rfl rfl
  | starting => exact ho.elim
  | running => exact ho.elim
  | reversing => exact hOwner.trans ho
  | reversal => exact hOwner.trans ho

/-! ### Starting and running -/

theorem Channel.coherent.refreshDuty (h : u.coherent) : u.refreshDuty.coherent := by
  unfold Channel.refreshDuty
  split
  · next hs => exact h.congr rfl (.inl (by simp [hs, MotionState.driving]))
  · exact h

theorem Channel.ownedWhole.congr {m n : Motion} (h : u.ownedWhole) (hm : u.motion = some m) (hn : v.motion = some n)
    (ho : v.owner = u.owner) (hOwner : n.owner = m.owner) (hMode : n.mode = m.mode) (hGoal : n.goal = m.goal)
    (hDir : n.dir = m.dir) : v.ownedWhole := by
  obtain ⟨i, hi, hu⟩ := (Channel.ownedWhole_iff hm).1 h
  exact (Channel.ownedWhole_iff hn).2 ⟨i, hOwner.trans hi, by rw [ho, hu, hMode, hGoal, hDir]⟩

@[simp] theorem Channel.begun_phase (u : Channel) (now level : Nat) (normal : Bool) (m : Motion) :
    (u.begun now level normal m).phase = u.phase := by rw [Channel.begun_eq]

@[simp] theorem Channel.begun_stallTimer (u : Channel) (now level : Nat) (normal : Bool) (m : Motion) :
    (u.begun now level normal m).stallTimer = u.stallTimer := by rw [Channel.begun_eq]

@[simp] theorem Channel.begun_brakeTimer (u : Channel) (now level : Nat) (normal : Bool) (m : Motion) :
    (u.begun now level normal m).brakeTimer = u.brakeTimer := by rw [Channel.begun_eq]

/-- A waiting channel whose records agree whole enters STARTING, or RUNNING at once (R85). -/
theorem Channel.coherent_enterStarting {m : Motion} (hm : u.motion = some m) (hBrakes : m.braking = none)
    (hPaused : m.pausedFrom = none) (hBridged : u.bridged) (ho : u.ownedWhole) (hg : u.ownerGoal)
    (hh : u.holdTimer.isSome = true ↔ u.owner.map (·.mode) = some .hold) (hBrake : u.brakeTimer = none) (level : Nat)
    (normal : Bool) : (u.enterStarting now level normal m).coherent := by
  have hBegun : (u.begun now level normal m).bridged := hBridged.congr (by simp) (by simp) (by simp)
  rw [Channel.enterStarting_eq]
  split
  · refine Channel.coherent.refreshDuty ?_
    refine Channel.coherent_driving (m := m.start level normal) (.inr (by simp)) (by simp) hBrakes hPaused (by simp; rfl)
      (Channel.bridged.setBridge (hBegun.congr (by simp) (by simp) (by simp)) ..)
      (ho.congr hm (n := m.start level normal) (by simp) (by simp) rfl rfl rfl rfl) (hg.congr (by simp))
      (by simpa using hh) (by simpa using hBrake) (by simp) (by simp)
  · exact Channel.coherent_driving (m := m.start level normal) (.inl (by simp)) (by simp) hBrakes hPaused (by simp; rfl)
      (hBegun.setBridge ..) (ho.congr hm (n := m.start level normal) (by simp) (by simp) rfl rfl rfl rfl)
      (hg.congr (by simp)) (by simpa using hh) (by simpa using hBrake) (by simp) (by simp)

/-- The end of the ramp (R86). -/
theorem Channel.coherent.rampEnd (h : u.coherent) (hs : u.mstate = .starting) :
    u.enterRunning.refreshDuty.coherent := by
  obtain ⟨m, hm, hBrakes, hPaused, hBridge, hBrake, hRun⟩ := h.driving (by simp [hs, MotionState.driving])
  have hOwned := h.owned_driving (by simp [hs, MotionState.driving])
  simp only [hs, reduceCtorEq, if_false] at hOwned
  have hRunning : u.enterRunning.coherent := by
    refine Channel.coherent_driving (.inr (by simp)) (m := m) (by simpa using hm) hBrakes hPaused (by simpa using hBridge)
      (h.bridged.congr (by simp) (by simp) (by simp)) ?_ (h.ownerGoal.congr (by simp)) (by simpa using h.hold)
      (by simpa using hBrake) (by simp) (by simpa using hRun)
    exact hOwned.congr hm (n := m) (by simpa using hm) (by simp) rfl rfl rfl rfl
  exact hRunning.refreshDuty

end

end Sys2Proof.Machine
end

section
/-! PROOFS. The agreement of one channel (O6), continued: a stop request, whatever its cause. -/

namespace Sys2Proof.Machine

/-- What an event that starts no motion may make of a channel in agreement: it stays in agreement, drives and waits only
where it did before, and stays IDLE. -/
structure Channel.eases (u v : Channel) : Prop where
  coherent : v.coherent
  queued : v.mstate = .queued → u.mstate = .queued
  driving : v.mstate.driving = true → u.mstate.driving = true
  idle : u.mstate = .idle → v.mstate = .idle

section
variable {u v w : Channel} {now : Nat}

theorem Channel.eases.of_mstate (h : v.coherent) (hs : v.mstate = u.mstate) : u.eases v :=
  ⟨h, (hs ▸ ·), (hs ▸ ·), (hs ▸ ·)⟩

/-- What a brake leaves eases any channel but an IDLE one. -/
theorem Channel.eases.of_braking (h : v.coherent) (hv : v.mstate = .braking) (hu : u.mstate ≠ .idle) : u.eases v :=
  ⟨h, fun hq => by simp [hv] at hq, fun hd => by simp [hv, MotionState.driving] at hd, fun hi => absurd hi hu⟩

theorem Channel.eases.of_idle (h : v.coherent) (hv : v.mstate = .idle) : u.eases v :=
  ⟨h, fun hq => by simp [hv] at hq, fun hd => by simp [hv, MotionState.driving] at hd, fun _ => hv⟩

/-- A change that the agreement does not read. -/
theorem Channel.coherent.eases (h : u.coherent) (hd : v.drive = u.drive) (hDuty : v.duty = u.duty) : u.eases v :=
  .of_mstate (h.congr hd (.inr hDuty)) (congrArg Prod.fst hd)

/-- A channel without an owner has no hold timer. -/
theorem Channel.coherent.sameHold (h : u.coherent) {t : Timer} (ht : u.owner = none → t = none) (ho : u.owner = none) :
    ({ u with holdTimer := t } : Channel) = u := by
  obtain rfl := ht ho
  rw [← h.holdOwned ho]

/-- A stop request leaves a channel in agreement, whatever the hold timer of its owner (R99 to R101, R123). -/
theorem Channel.coherent.stopped (h : u.coherent) {t : Timer} (ht : u.owner = none → t = none)
    (hw : w = { u with holdTimer := t }) (now : Nat) (cause : StopCause) :
    u.eases (w.stopped now cause) ∧ (w.stopped now cause).mstate ≠ .queued := by
  have hState : w.mstate = u.mstate := by rw [hw]
  have hMotion : w.motion = u.motion := by rw [hw]
  have hHold : w.holdOwned := by rw [hw]; exact ht
  have hBridged : w.bridged := by rw [hw]; exact h.bridged
  have hUnowned (ho : u.owner = none) : w = u := hw.trans (h.sameHold ht ho)
  have hCancels (hs : u.mstate = .braking) : u.eases (w.cancelFollowOn now cause) :=
    .of_braking (hw ▸ h.cancelFollowOn hs ht now cause) (by simpa using hState.trans hs) (by simp [hs])
  clear hw
  have hStays (ho : u.owner = none) : u.eases w := .of_mstate ((hUnowned ho).symm ▸ h) hState
  have hEnds (hs : u.mstate ≠ .idle) : u.eases (w.endMotion now cause) := by
    obtain ⟨m, hm⟩ := h.motion_some hs
    exact .of_braking (Channel.coherent_endMotion (hMotion.trans hm) hBridged hHold cause) (by simp) hs
  have hReversal (hs : u.mstate ≠ .idle) (ho : u.owner = none) :
      u.eases (if cause.stopsAll = true then w.cutReversal now cause else w) := by
    split
    · obtain ⟨m, hm⟩ := h.motion_some hs
      rw [hUnowned ho]
      exact .of_braking (Channel.coherent_cutReversal hm h.bridged ho (h.holdOwned ho) cause) (by simp) hs
    · exact hStays ho
  have hOwner := h.ownerIs
  have hEases : u.eases (w.stopped now cause) := by
    unfold Channel.stopped
    unfold Channel.ownerFollows at hOwner
    rw [hState, hMotion]
    cases hs : u.mstate <;> simp only [hs] at hOwner ⊢
    case idle => exact hStays hOwner
    case queued => exact .of_idle (Channel.coherent_dropMotion hBridged hHold cause) (by simp)
    case starting => exact hEnds (by simp [hs])
    case running => exact hEnds (by simp [hs])
    case reversing => exact hReversal (by simp [hs]) hOwner
    case paused =>
      obtain ⟨m, hm, -, hPaused, -⟩ := h.resting (.inr hs)
      obtain ⟨x, hx⟩ := Option.isSome_iff_exists.1 (hPaused.2 hs)
      have hOwnerPaused := h.owner_paused hs hm hx
      simp only [hm, Option.bind_some, hx]
      cases x with
      | reversing => exact hReversal (by simp [hs]) hOwnerPaused
      | reversal => exact hReversal (by simp [hs]) hOwnerPaused
      | starting => exact hEnds (by simp [hs])
      | running => exact hEnds (by simp [hs])
      | motion => exact hEnds (by simp [hs])
    case braking =>
      obtain ⟨m, ⟨f, e⟩, hm, hBrakes, -⟩ := h.braking hs
      simp only [hm, Option.bind_some, hBrakes] at hOwner ⊢
      cases f with
      | motion slot mode goal d => exact hCancels hs
      | none => exact hStays hOwner
      | reversal =>
        simp only at hOwner ⊢
        split
        · exact hCancels hs
        · exact hStays hOwner
  refine ⟨hEases, fun hQueued => ?_⟩
  have hWas := hState.trans (hEases.queued hQueued)
  simp [Channel.stopped, hWas] at hQueued

end

end Sys2Proof.Machine
end

section
/-! PROOFS. The agreement of the part (O6): what one channel's turn keeps of it. -/

namespace Sys2Proof.Machine

section
variable {s t u : State} {c : Chan} {x : Channel} {f : Channel → Channel}

/-! ### What the agreement of the part says and reads -/

theorem State.coherent.channel (h : s.coherent) (c : Chan) : (s.ch c).coherent := h.1 c (Chan.mem_all c)

theorem State.coherent.nodup (h : s.coherent) : s.startQueue.Nodup := h.2.1

theorem State.coherent.queued (h : s.coherent) (c : Chan) : c ∈ s.startQueue ↔ (s.ch c).mstate = .queued :=
  h.2.2.1 c (Chan.mem_all c)

theorem State.coherent.released (h : s.coherent) (hLine : s.holdLine.level = true) (c : Chan) :
    (s.ch c).mstate.driving = false :=
  (h.channel c).drives_eq.symm.trans (h.2.2.2.1 hLine c (Chan.mem_all c))

theorem State.coherent.config (h : s.coherent) (hConfig : s.partState = .config) (c : Chan) :
    (s.ch c).mstate = .idle := h.2.2.2.2 hConfig c (Chan.mem_all c)

theorem State.coherent.of_channels (hChannel : ∀ c, (s.ch c).coherent) (hNodup : s.startQueue.Nodup)
    (hQueued : ∀ c, c ∈ s.startQueue ↔ (s.ch c).mstate = .queued)
    (hLine : s.holdLine.level = true → ∀ c, (s.ch c).mstate.driving = false)
    (hConfig : s.partState = .config → ∀ c, (s.ch c).mstate = .idle) : s.coherent :=
  ⟨fun c _ => hChannel c, hNodup, fun c _ => hQueued c, fun h c _ => (hChannel c).drives_eq.trans (hLine h c),
    fun h c _ => hConfig h c⟩

/-- The agreement reads channels, start queue, hold line and part state. -/
theorem State.coherent.rest (h : s.coherent) (hCh : t.channels = s.channels) (hQueue : t.startQueue = s.startQueue)
    (hLine : t.holdLine.level = s.holdLine.level) (hPart : t.partState = s.partState) : t.coherent := by
  unfold State.coherent State.ch at h ⊢
  rw [hCh, hQueue, hLine, hPart]
  exact h

/-! ### One channel's turn -/

/-- One channel changes and stays in agreement with the queue, the hold line and the part state. -/
theorem State.coherent.oneChannel (h : s.coherent) (hOne : oneChannel c s t) (hChannel : (t.ch c).coherent)
    (hNodup : t.startQueue.Nodup) (hOther : ∀ d ≠ c, (d ∈ t.startQueue ↔ d ∈ s.startQueue))
    (hQueued : c ∈ t.startQueue ↔ (t.ch c).mstate = .queued)
    (hLine : s.holdLine.level = true → (t.ch c).mstate.driving = false)
    (hConfig : s.partState = .config → (t.ch c).mstate = .idle) : t.coherent := by
  refine .of_channels (fun d => ?_) hNodup (fun d => ?_) (fun hl d => ?_) fun hp d => ?_ <;>
    by_cases hd : d = c
  case pos => exact hd ▸ hChannel
  case neg => exact hOne.others d hd ▸ h.channel d
  case pos => exact hd ▸ hQueued
  case neg => rw [hOne.others d hd, hOther d hd]; exact h.queued d
  case pos => exact hd ▸ hLine (hOne.holdLine ▸ hl)
  case neg => rw [hOne.others d hd]; exact h.released (hOne.holdLine ▸ hl) d
  case pos => exact hd ▸ hConfig (hOne.partState ▸ hp)
  case neg => rw [hOne.others d hd]; exact h.config (hOne.partState ▸ hp) d

/-- One channel's turn starts no motion; the queue loses it where it no longer waits. -/
theorem State.coherent.eased (h : s.coherent) (hOne : Machine.oneChannel c s t) (hEases : (s.ch c).eases (t.ch c))
    (hQueue : t.startQueue = if (t.ch c).mstate = .queued then s.startQueue else s.startQueue.filter (· ≠ c)) :
    t.coherent := by
  refine h.oneChannel hOne hEases.coherent ?_ (fun d hd => ?_) ?_ (fun hl => ?_) fun hp => hEases.idle (h.config hp c)
  · rw [hQueue]
    split
    · exact h.nodup
    · exact h.nodup.filter _
  · rw [hQueue]
    split
    · rfl
    · simp [hd]
  · rw [hQueue]
    split
    · next hq => simp [hq, h.queued, hEases.queued hq]
    · next hq => simp [hq]
  · exact Bool.eq_false_iff.2 fun hd => by simpa [h.released hl c] using hEases.driving hd

/-- A channel that does not wait leaves no place in the start queue. -/
theorem State.coherent.filter_eq (h : s.coherent) (hs : (s.ch c).mstate ≠ .queued) :
    s.startQueue.filter (· ≠ c) = s.startQueue :=
  List.filter_eq_self.2 fun _ hd => decide_eq_true fun hdc => hs ((h.queued c).1 (hdc ▸ hd))

/-- The same where the queue stays as it is. -/
theorem State.coherent.kept (h : s.coherent) (hOne : Machine.oneChannel c s t) (hEases : (s.ch c).eases (t.ch c))
    (hQueue : t.startQueue = s.startQueue) (hWaits : (s.ch c).mstate = .queued → (t.ch c).mstate = .queued) :
    t.coherent := by
  refine h.eased hOne hEases (hQueue.trans ?_)
  split
  · rfl
  · next hq => exact (h.filter_eq (mt hWaits hq)).symm

theorem State.coherent.setCh (h : s.coherent) (hEases : (s.ch c).eases x)
    (hWaits : (s.ch c).mstate = .queued → x.mstate = .queued) : (s.setCh c x).coherent :=
  h.kept (c := c) (setCh_oneChannel c x s) (by rwa [State.ch_setCh_self]) rfl (by rwa [State.ch_setCh_self])

theorem State.coherent.modCh (h : s.coherent) (hEases : (s.ch c).eases (f (s.ch c)))
    (hWaits : (s.ch c).mstate = .queued → (f (s.ch c)).mstate = .queued) : (s.modCh c f).coherent :=
  h.setCh hEases hWaits

/-- A change of one channel that the agreement does not read. -/
theorem State.coherent.modCh_unread (h : s.coherent) (hDrive : (f (s.ch c)).drive = (s.ch c).drive)
    (hDuty : (f (s.ch c)).duty = (s.ch c).duty) : (s.modCh c f).coherent := by
  have hEases := (h.channel c).eases hDrive hDuty
  exact h.modCh hEases fun hq => (congrArg Prod.fst hDrive).trans hq

/-! ### Stops, reversals and incidents -/

theorem State.turn_oneChannel (s : State) (c : Chan) (x : Channel) (b : Bool) (o : Option ReversalOutcome) :
    Machine.oneChannel c s (s.turn c x b o) :=
  ⟨fun _ hd => State.turn_ch_ne hd, rfl⟩

/-- A stop request, whatever the hold timer of the owner (R99 to R101, R123). -/
theorem State.coherent.stopRequest_rid (h : s.coherent) {τ : Timer} (hτ : (s.ch c).owner = none → τ = none)
    (cause : StopCause) :
    (Machine.stopRequest c cause (s.setCh c { s.ch c with holdTimer := τ })).coherent := by
  obtain ⟨hEases, hLeft⟩ := (h.channel c).stopped hτ rfl s.clock cause
  rw [stopRequest_turn, State.ch_setCh_self, State.setCh_clock]
  refine h.eased (c := c) ((setCh_oneChannel c _ s).trans (State.turn_oneChannel ..)) ?_ ?_
  · rw [State.turn_ch_self]; exact hEases
  · rw [State.turn_ch_self, State.turn_startQueue, if_neg hLeft]
    by_cases hs : (s.ch c).mstate = .queued
    · simp [hs]
    · simpa [hs] using (h.filter_eq hs).symm

theorem State.coherent.stopRequest (h : s.coherent) (c : Chan) (cause : StopCause) :
    (Machine.stopRequest c cause s).coherent := by
  have hSame : s.setCh c { s.ch c with holdTimer := (s.ch c).holdTimer } = s :=
    congrArg (fun p => { s with channels := p }) (PerChan.set_get_self s.channels c)
  have hStopped := h.stopRequest_rid (c := c) (h.channel c).holdOwned cause
  rwa [hSame] at hStopped

/-- The strike count and its window are not read. -/
theorem Channel.coherent.strike {u : Channel} (h : u.coherent) (now window : Nat) : (u.strike now window).coherent :=
  h.congr rfl (.inr rfl)

theorem State.coherent.declareIncident (h : s.coherent)
    (hState : (s.ch c).mstate = .starting ∨ (s.ch c).mstate = .running) (cause : IncidentCause)
    (force : Option (Nat × Nat)) : (Machine.declareIncident c cause force s).coherent := by
  have hActive : (s.ch c).mstate ≠ .idle ∧ (s.ch c).mstate ≠ .queued := by
    obtain hs | hs := hState <;> simp [hs]
  have hOne := declareIncident_oneChannel c cause force s
  refine h.kept hOne ?_ (by rw [declareIncident_rest]) fun hq => absurd hq hActive.2
  rw [declareIncident_ch]
  exact .of_braking (((h.channel c).strike ..).takeIncident hActive.1 ..) (by simp) hActive.1

theorem Channel.stripTrips_drives {u : Channel} (h : u.stripTrips = true) :
    u.mstate = .starting ∨ u.mstate = .running := by
  unfold Channel.stripTrips at h
  simp only [Bool.and_eq_true, decide_eq_true_eq] at h
  obtain ⟨⟨⟨-, hState⟩, -⟩, -⟩ := h
  exact hState

theorem State.coherent.judgeStrip (h : s.coherent) (c : Chan) : (Machine.judgeStrip c s).coherent := by
  unfold Machine.judgeStrip
  split
  · next hTrips => exact h.declareIncident (Channel.stripTrips_drives hTrips) ..
  · exact h

/-- A reversal that drives ends through BRAKING (R97). -/
theorem State.coherent.endReversal (h : s.coherent) (hState : (s.ch c).mstate = .reversing) (cause : Option StopCause)
    (o : ReversalOutcome) : (Machine.endReversal c cause o s).coherent := by
  obtain ⟨m, hm, -⟩ := (h.channel c).driving (by simp [hState, MotionState.driving])
  have hOwner := (h.channel c).owned_driving (by simp [hState, MotionState.driving])
  rw [if_pos hState] at hOwner
  refine h.kept (endReversal_oneChannel c cause o s) ?_ (by rw [endReversal_eq]; rfl) fun hq => ?_
  · rw [endReversal_eq]
    refine (State.ch_setCh_self s c _).symm ▸ .of_braking ?_ (by simp) (by simp [hState])
    exact Channel.coherent_cutReversal hm (h.channel c).bridged hOwner ((h.channel c).holdOwned hOwner) _
  · simp [hState] at hq

/-- A motion that drives ends through BRAKING, whatever of its channel the agreement does not read (R90). -/
theorem State.coherent.endMotion (h : s.coherent) (hState : (s.ch c).mstate.driving = true)
    (hDrive : (f (s.ch c)).drive = (s.ch c).drive) (hDuty : (f (s.ch c)).duty = (s.ch c).duty) (cause : StopCause) :
    (s.modCh c fun u => (f u).endMotion s.clock cause).coherent := by
  have hActive : (s.ch c).mstate ≠ .idle ∧ (s.ch c).mstate ≠ .queued := by
    constructor <;> intro hs <;> simp [hs, MotionState.driving] at hState
  have hRead := (h.channel c).congr hDrive (.inr hDuty)
  have hStill : (f (s.ch c)).mstate ≠ .idle := by
    rw [show (f (s.ch c)).mstate = (s.ch c).mstate from congrArg Prod.fst hDrive]; exact hActive.1
  exact h.modCh (.of_braking (hRead.endMotion hStill ..) (by simp) hActive.1) fun hq => absurd hq hActive.2

end

end Sys2Proof.Machine
end

section
/-! PROOFS. The agreement of the part (O6), continued: edges, strips, stalls and the timers of a drive. -/

namespace Sys2Proof.Machine

section
variable {s t u : State} {c : Chan} {x : Channel} {f : Channel → Channel}

/-! ### Changes that the agreement does not read -/

/-- Channels whose drive and duty stay, in a part whose queue, hold line and part state stay. -/
theorem State.coherent.unread (h : s.coherent) (hDrive : ∀ c, (t.ch c).drive = (s.ch c).drive)
    (hDuty : ∀ c, (t.ch c).duty = (s.ch c).duty) (hQueue : t.startQueue = s.startQueue)
    (hLine : t.holdLine.level = s.holdLine.level) (hPart : t.partState = s.partState) : t.coherent := by
  have hState (c : Chan) : (t.ch c).mstate = (s.ch c).mstate := congrArg Prod.fst (hDrive c)
  refine .of_channels (fun c => (h.channel c).congr (hDrive c) (.inr (hDuty c))) (hQueue ▸ h.nodup) (fun c => ?_)
    (fun hl c => ?_) fun hp c => ?_
  · rw [hQueue, hState]; exact h.queued c
  · rw [hState]; exact h.released (hLine ▸ hl) c
  · rw [hState]; exact h.config (hPart ▸ hp) c

/-- A change of what a motion record keeps beside its plan. -/
theorem Channel.mapMotion_drive {g : Motion → Motion} (hg : ∀ m, (g m).plan = m.plan) (u : Channel) :
    (u.mapMotion g).drive = u.drive := by
  have hPlan : (u.mapMotion g).motion.map Motion.plan = u.motion.map Motion.plan := by
    simp [Channel.mapMotion_motion, Function.comp_def, hg]
  unfold Channel.drive
  rw [hPlan]
  rfl

theorem State.coherent.flush (h : s.coherent) : (flush s).coherent :=
  h.unread (fun c => by rw [flush_ch]; rfl) (fun c => by rw [flush_ch]) (by rw [flush_eq]) (by rw [flush_eq])
    (by rw [flush_eq])

theorem State.coherent.waitUntil (h : s.coherent) (ms : Nat) : (s.waitUntil ms).coherent := h.rest rfl rfl rfl rfl

/-! ### Edges -/

theorem State.coherent.countFaults (h : s.coherent) (c : Chan) (step reverse speed : Bool) :
    (Machine.countFaults c step reverse speed s).coherent := by
  have hRaised (nStep nReverse nSpeed : Nat) : (s.modCh c fun ch =>
      { ch with stepFaults := nStep, reverseFaults := nReverse, speedFaults := nSpeed }).coherent :=
    h.modCh_unread rfl rfl
  have hThreshold (nStep nReverse nSpeed : Nat) (g : Channel → FaultSet) : ((s.modCh c fun ch =>
      { ch with stepFaults := nStep, reverseFaults := nReverse, speedFaults := nSpeed }).modCh c fun ch =>
      (ch.setSummary (g ch)).setDatum .unreferenced).coherent :=
    (hRaised ..).modCh_unread rfl rfl
  unfold Machine.countFaults
  dsimp only
  split
  · exact (hThreshold _ _ _ fun ch => _).stopRequest ..
  · exact hRaised ..

theorem State.coherent.checkOvertravel (h : s.coherent) (c : Chan) : (Machine.checkOvertravel c s).coherent := by
  unfold Machine.checkOvertravel
  dsimp only
  split
  · exact (h.modCh_unread rfl rfl).stopRequest ..
  · exact h

theorem Channel.coherent.restartStall {u : Channel} (h : u.coherent) (now : Nat) :
    (u.restartStall now).drive = u.drive := by
  unfold Channel.restartStall
  split
  · next hb =>
    have hStall : u.stallTimer.isSome = true := h.bridged.2.trans hb
    unfold Channel.drive startTimer
    rw [hStall]
    rfl
  · rfl

theorem Channel.restartStall_duty (u : Channel) (now : Nat) : (u.restartStall now).duty = u.duty := by
  unfold Channel.restartStall
  split <;> rfl

/-- The detector's computation stays off the drive. -/
theorem Channel.detect_unread (volts arough : Nat) (closing : Bool) (period : Option Nat) (u : Channel) :
    (u.detect volts arough closing period).1.drive = u.drive ∧ (u.detect volts arough closing period).1.duty = u.duty ∧
      ((u.detect volts arough closing period).2 = true → u.mstate = .running) := by
  unfold Channel.detect
  by_cases hState : u.mstate = .running
  · rw [if_neg fun h => h hState]
    split
    · exact ⟨rfl, rfl, fun _ => hState⟩
    · cases period with
      | none => exact ⟨rfl, rfl, fun _ => hState⟩
      | some p =>
        have hRead := congrArg (fun v : Channel => (v.drive, v.duty)) (Channel.fed_rest volts arough closing p u)
        exact ⟨congrArg Prod.fst hRead, congrArg Prod.snd hRead, fun _ => hState⟩
  · rw [if_pos hState]
    exact ⟨rfl, rfl, nofun⟩

theorem State.coherent.detectEdge (h : s.coherent) (c : Chan) (closing : Bool) (period : Option Nat) :
    (Machine.detectEdge c closing period s).coherent := by
  unfold Machine.detectEdge
  obtain ⟨hDrive, hDuty, hRunning⟩ :=
    Channel.detect_unread s.volts (s.globals.arough s.roughness) closing period (s.ch c)
  generalize (s.ch c).detect s.volts (s.globals.arough s.roughness) closing period = x at hDrive hDuty hRunning
  have hKept : (s.setCh c x.1).coherent := h.modCh_unread (f := fun _ => x.1) hDrive hDuty
  dsimp only
  split
  · next hPinch =>
    refine hKept.declareIncident (.inr ?_) ..
    rw [State.ch_setCh_self]
    exact (congrArg Prod.fst hDrive).trans (hRunning hPinch)
  · exact hKept

theorem State.coherent.driveEdge (h : s.coherent) (c : Chan) : (Machine.driveEdge c s).coherent := by
  have hMoves (hs : (s.ch c).mstate.driving = true) : (match (s.ch c).motionEnd with
      | some cause => s.modCh c (·.endMotion s.clock cause)
      | none => s.modCh c (·.refreshDuty)).coherent := by
    cases (s.ch c).motionEnd with
    | some cause => exact h.endMotion (f := id) hs rfl rfl cause
    | none =>
      have hEases : (s.ch c).eases (s.ch c).refreshDuty := .of_mstate (h.channel c).refreshDuty (by simp)
      exact h.modCh hEases fun hq => (by simpa using hq)
  unfold Machine.driveEdge
  cases hs : (s.ch c).mstate <;> simp only [hs]
  case starting => exact hMoves (by simp [hs, MotionState.driving])
  case running => exact hMoves (by simp [hs, MotionState.driving])
  case reversing =>
    cases (s.ch c).motion with
    | none => exact h
    | some m =>
      dsimp only
      split
      · split
        · exact h.endReversal hs ..
        · exact h
      · exact h
  all_goals exact h

theorem State.coherent.edgeReport (h : s.coherent) (c : Chan) (closing : Bool) (period : Option Nat) :
    (Machine.edgeReport c closing period s).coherent := by
  unfold Machine.edgeReport
  have hStall : (s.modCh c (·.restartStall s.clock)).coherent :=
    h.modCh_unread ((h.channel c).restartStall s.clock) (Channel.restartStall_duty ..)
  exact ((hStall.judgeStrip c).detectEdge c closing period).driveEdge c

theorem State.coherent.countEdge (h : s.coherent) (c : Chan) (d : Dir) : (Machine.countEdge c d s).coherent := by
  unfold Machine.countEdge
  extract_lets ch p closing period speed reverse s1 s2 s3
  have hCounted : s1.coherent := by
    refine h.modCh_unread ?_ rfl
    simp only [Channel.drive, Option.map_map]
    rfl
  exact ((hCounted.countFaults ..).checkOvertravel c).edgeReport ..

theorem State.coherent.hallPair (h : s.coherent) (c : Chan) (a b a' b' : Bool) :
    (Machine.hallPair c a b a' b' s).coherent := by
  unfold Machine.hallPair
  dsimp only
  split
  · exact h.countFaults ..
  · split
    · exact h
    · split
      · exact h.countEdge ..
      · exact h

theorem State.coherent.sampleHall (h : s.coherent) (c : Chan) (a b : Bool) (stable : Nat) :
    (Machine.sampleHall c a b stable s).coherent := by
  have hRest (now : Nat) (fa fb : Filter) : ((({ s with clock := now } : State)).modCh c fun ch =>
      { ch with hallA := fa, hallB := fb, hallSampled := now }).coherent :=
    (h.rest (t := { s with clock := now }) rfl rfl rfl rfl).modCh_unread rfl rfl
  unfold Machine.sampleHall
  extract_lets ch t0 fa fb rest
  split
  · exact hRest ..
  · split
    · exact hRest ..
    · exact (hRest ..).hallPair ..

theorem State.coherent.sampleStrip (h : s.coherent) (c : Chan) (level : Bool) (stable : Nat) :
    (Machine.sampleStrip c level stable s).coherent := by
  unfold Machine.sampleStrip
  extract_lets ch x s1
  have hSampled : s1.coherent :=
    (h.rest (t := { s with clock := x.2.1 }) rfl rfl rfl rfl).modCh_unread rfl rfl
  split
  · exact hSampled.judgeStrip c
  · exact hSampled

/-! ### Stalls and the timers of a drive -/

theorem Channel.stallClass_reversal {u : Channel} (h : u.stallClass = .stalledReversal) : u.mstate = .reversing := by
  unfold Channel.stallClass at h
  grind

theorem Channel.stallClass_incident {u : Channel} (h : u.stallClass = .incident) : u.mstate = .running := by
  unfold Channel.stallClass at h
  grind

/-- A stall of a channel that drives. -/
theorem State.coherent.stall (h : s.coherent) (hState : (s.ch c).mstate.driving = true) :
    (Machine.stall c s).coherent := by
  unfold Machine.stall
  dsimp only
  cases hClass : (s.ch c).stallClass with
  | referenceEnd => exact h.endMotion (f := fun u => u.datumFound u.tune.referencePosition) hState rfl rfl _
  | stalledReversal => exact h.endReversal (Channel.stallClass_reversal hClass) ..
  | closedEnd => exact h.endMotion (f := fun u => u.datumFound 0) hState rfl rfl _
  | incident => exact h.declareIncident (.inr (Channel.stallClass_incident hClass)) ..
  | plain => exact h.endMotion (f := id) hState rfl rfl _

theorem State.coherent.runLimitReached (h : s.coherent) (c : Chan) : (Machine.runLimitReached c s).coherent := by
  unfold Machine.runLimitReached
  cases hs : (s.ch c).mstate
  case starting => exact h.endMotion (f := id) (by simp [hs, MotionState.driving]) rfl rfl _
  case running => exact h.endMotion (f := id) (by simp [hs, MotionState.driving]) rfl rfl _
  case reversing => exact h.endReversal hs ..
  all_goals exact h

theorem State.coherent.rampEnd (h : s.coherent) (hs : (s.ch c).mstate = .starting) :
    (s.modCh c fun ch => ch.enterRunning.refreshDuty).coherent :=
  h.modCh ⟨(h.channel c).rampEnd hs, fun hq => (by simp at hq), fun _ => by simp [hs, MotionState.driving],
    fun hi => (by simp [hs] at hi)⟩ fun hq => (by simp [hs] at hq)

/-- The duty of a channel that drives is not read. -/
theorem State.coherent.rampDuty (h : s.coherent) (hs : (s.ch c).mstate = .starting) (r : Ramp) (duty : Channel → Nat) :
    (s.modCh c fun ch => { ch with ramp := some r, duty := duty ch }).coherent := by
  have hRamp : (s.ch c).ramp.isSome = true := by
    obtain ⟨-, -, -, -, -, -, -, -, -, hRamp, -⟩ := h.channel c
    exact hRamp.2 hs
  refine h.modCh (.of_mstate ((h.channel c).congr ?_ (.inl (by simp [hs, MotionState.driving]))) rfl) fun hq => hq
  unfold Channel.drive
  rw [hRamp]
  rfl

end

end Sys2Proof.Machine
end

section
/-! PROOFS. The agreement of the part (O6), continued: the admission, and what a brake turns to. -/

namespace Sys2Proof.Machine

section
variable {s t : State} {c : Chan} {u x : Channel} {m : Motion} {rest : List Chan} {now : Nat}

/-! ### The admission of the head (R84, R85, R133) -/

/-- A waiting channel whose motion is not at its end holds one direction in both records. -/
theorem Channel.coherent.directed (h : u.coherent) (hState : u.mstate = .queued) (hm : u.motion = some m)
    (hOpen : (u.directed m).motionEnd = none) : (u.directed m).ownedWhole := by
  have hOwned := h.ownerIs
  simp only [Channel.ownerFollows, hState] at hOwned
  obtain ⟨i, d, hi, hu⟩ := (Channel.owned_iff hm).1 hOwned
  obtain ⟨w, hWish⟩ : ∃ w, wishDir u.tune.axis m.goal u.position = some w := by
    cases hGoal : m.goal with
    | none => exact ⟨.dec, rfl⟩
    | some g =>
      have hMode : m.mode ≠ .reference := fun hr => by
        simpa [hGoal] using (h.ownerGoal _ (Option.mem_def.2 hu)).1 hr
      rw [Channel.directed_motionEnd hm hMode hGoal] at hOpen
      exact Option.ne_none_iff_exists'.1 fun hNone => endCause_of_still hNone _ _ hOpen
  rw [Channel.directed_eq hm hWish]
  exact (Channel.ownedWhole_iff (m := { m with dir := w }) rfl).2 ⟨i, hi, by simp [hu]⟩

/-- The head leaves the queue while the line is released. -/
theorem State.coherent.takeHead (h : s.coherent) (hQueue : s.startQueue = c :: rest)
    (hLine : s.holdLine.level = false) (hx : x.coherent) (hLeft : x.mstate ≠ .queued) (spacing : Timer) :
    (s.admitted c rest spacing x).coherent := by
  have hNodup := h.nodup
  rw [hQueue] at hNodup
  obtain ⟨hNew, hRest⟩ := List.nodup_cons.1 hNodup
  have hWaits : (s.ch c).mstate = .queued := (h.queued c).1 (by simp [hQueue])
  have hCh : (s.admitted c rest spacing x).ch c = x := State.admitted_ch ..
  refine h.oneChannel (c := c) ⟨fun d hd => State.ch_setCh_ne s x hd, rfl⟩ (hCh.symm ▸ hx) hRest (fun d hd => ?_) ?_
    (fun hl => absurd hl (by simp [hLine])) fun hp => ?_
  · rw [hQueue]
    exact ⟨List.mem_cons_of_mem c, fun hMem => (List.mem_cons.1 hMem).resolve_left hd⟩
  · rw [hCh]
    exact iff_of_false hNew hLeft
  · simp [h.config hp c] at hWaits

theorem State.coherent.admitHead (h : s.coherent) (hQueue : s.startQueue = c :: rest)
    (hLine : s.holdLine.level = false) : (Machine.admitHead c { s with startQueue := rest }).coherent := by
  have hState : (s.ch c).mstate = .queued := (h.queued c).1 (by simp [hQueue])
  have hChannel := h.channel c
  obtain ⟨m, hm, hBrakes, hPaused, -, -, hBrake, -⟩ := hChannel.resting (.inl hState)
  have hDirected := Channel.directed_eq hm rfl
  have hNotPaused : m.pausedFrom = none := by simpa [hState] using hPaused
  generalize hWish : wishDir (s.ch c).tune.axis m.goal (s.ch c).position = w at hDirected
  have hBridged : ((s.ch c).directed m).bridged := by rw [hDirected]; exact hChannel.bridged
  have hHold : ((s.ch c).directed m).holdTimer.isSome = true ↔
      ((s.ch c).directed m).owner.map (·.mode) = some .hold := by
    rw [hDirected]
    simpa [Function.comp_def] using hChannel.hold
  have hGoal : ((s.ch c).directed m).ownerGoal := by
    rw [hDirected]
    intro o ho
    obtain ⟨o', ho', rfl⟩ := Option.mem_map.1 ho
    exact hChannel.ownerGoal o' ho'
  have hOwned : ((s.ch c).directed m).holdOwned := fun ho => by
    by_contra hSome
    simpa [ho] using hHold.1 (Option.isSome_iff_ne_none.2 hSome)
  cases hEnd : ((s.ch c).directed m).motionEnd with
  | some cause =>
    rw [admitHead_ends (s := { s with startQueue := rest }) (by exact hm) rfl hEnd]
    exact h.takeHead hQueue hLine (Channel.coherent_dropMotion hBridged hOwned cause) (by simp) s.spacingTimer
  | none =>
    rw [admitHead_starts (s := { s with startQueue := rest }) (m' := { m with dir := w.getD m.dir }) (by exact hm) rfl
      (by rw [show State.ch { s with startQueue := rest } c = s.ch c from rfl, hDirected]) hEnd]
    have hStarted := Channel.coherent_enterStarting (now := s.clock) (u := (s.ch c).directed m)
      (m := { m with dir := w.getD m.dir }) (by rw [hDirected]) hBrakes hNotPaused hBridged
      (hChannel.directed hState hm hEnd) hGoal hHold (by rw [hDirected]; exact hBrake) s.roughness
      (decide (s.band = .normal))
    refine State.coherent.judgeStrip ?_ c
    exact h.takeHead hQueue hLine hStarted (by rw [Channel.enterStarting_mstate]; split <;> simp) s.startSpacing

end

end Sys2Proof.Machine
end

section
/-! PROOFS. The agreement of the part (O6), continued: what an expired brake turns to. -/

namespace Sys2Proof.Machine

section
variable {s t : State} {c : Chan} {u x : Channel} {m : Motion} {now : Nat}

/-! ### A brake toward a reversal (R92, R95) -/

/-- A channel that drives again joins a part whose line is released. -/
theorem State.coherent.setDriving (h : s.coherent) (hLine : s.holdLine.level ≠ true)
    (hActive : (s.ch c).mstate ≠ .idle ∧ (s.ch c).mstate ≠ .queued) (hx : x.coherent)
    (hDriving : x.mstate.driving = true) : (s.setCh c x).coherent := by
  refine h.oneChannel (c := c) (setCh_oneChannel c x s) ?_ h.nodup (fun _ _ => Iff.rfl) ?_ (fun hl => absurd hl hLine)
    fun hp => absurd (h.config hp c) hActive.1
  · rwa [State.ch_setCh_self]
  · rw [State.ch_setCh_self, State.setCh_startQueue, h.queued]
    exact iff_of_false hActive.2 fun hq => by simp [hq, MotionState.driving] at hDriving

/-- A BRAKING channel leaves its brake for a state in which it neither drives nor waits in the queue. -/
theorem State.coherent.setStill (h : s.coherent) (hState : (s.ch c).mstate = .braking) (hx : x.coherent)
    (hStill : x.mstate = .idle ∨ x.mstate = .paused) : (s.setCh c x).coherent := by
  refine h.setCh ⟨hx, fun hq => ?_, fun hd => ?_, fun hi => ?_⟩ fun hq => ?_
  · obtain hs | hs := hStill <;> simp [hs] at hq
  · obtain hs | hs := hStill <;> simp [hs, MotionState.driving] at hd
  · simp [hState] at hi
  · simp [hState] at hq

theorem State.coherent.formReversal (h : s.coherent) {ended : Bool} (hState : (s.ch c).mstate = .braking)
    (hm : (s.ch c).motion = some m) (hBrake : m.braking = some ⟨.reversal, ended⟩) :
    (Machine.formReversal c s).coherent := by
  by_cases hWay : (s.ch c).tune.dr ≠ 0 ∧ (s.ch c).reversalBeyond = true
  · rw [formReversal_beyond hm hWay.1 hWay.2]
    have hChannel := h.channel c
    obtain ⟨-, -, -, -, -, -, -, -, hRamp, hRun⟩ := hChannel.braking hState
    have hOwner : (s.ch c).owner = none := by
      simpa only [Channel.ownerFollows, hState, hm, Option.bind_some, hBrake] using hChannel.ownerIs
    have hHold := hChannel.holdOwned hOwner
    obtain ⟨r, hr⟩ : ∃ r, ((s.ch c).formed m).motion = some r := ⟨_, rfl⟩
    have hBridged : ((s.ch c).formed m).bridged := hChannel.bridged
    split
    · refine h.setStill hState (Channel.coherent_pauseAfterBrake hr hBridged hOwner ?_ ?_ hRamp hRun) (by simp)
      · intro o ho
        exact absurd (hOwner.symm.trans ho) nofun
      · exact iff_of_false (by simp [Channel.formed, hHold]) (by simp [Channel.formed, hOwner])
    · next hLine =>
      refine h.setDriving hLine (by simp [hState]) ?_ (by simp [MotionState.driving])
      exact Channel.coherent_driveReversal (m := { m with
        dir := reversalDir (s.ch c).tune (s.ch c).position
        goal := some (.target (reversalTarget (s.ch c).tune (s.ch c).datum (s.ch c).position)) }) rfl hBridged hOwner
        hHold hRamp
  · have hEnds : (s.ch c).tune.dr = 0 ∨ (s.ch c).reversalBeyond = false := by
      by_contra hNot
      exact hWay (by simpa [not_or] using hNot)
    rw [formReversal_ends hEnds]
    exact (h.setStill hState ((h.channel c).enterIdle s.clock) (by simp)).rest rfl rfl rfl rfl

/-! ### A brake toward a follow-on (R92, R93) -/

/-- What the expiry makes of a BRAKING channel that a MOTION follow-on owns: its new owner and its record agree. -/
structure Channel.follows (x : Channel) : Prop where
  record : ∃ r, x.motion = some r ∧ r.braking = none ∧ r.pausedFrom = none
  bridged : x.bridged
  owned : x.owned
  goal : x.ownerGoal
  hold : x.holdTimer.isSome = true ↔ x.owner.map (·.mode) = some .hold
  ramp : x.ramp = none
  run : x.runSince = none

theorem Channel.coherent.followed (h : u.coherent) {slot : Slot} {mode : Mode} {goal : Goal} {d : Dir} {ended : Bool}
    (hState : u.mstate = .braking) (hm : u.motion = some m)
    (hBrake : m.braking = some ⟨.motion slot mode goal d, ended⟩) (level : Nat) (normal : Bool) :
    (u.followed now level normal slot mode goal d m ended).follows := by
  obtain ⟨m', b, hm', -, hPaused, -, -, -, hRamp, hRun⟩ := h.braking hState
  obtain rfl : m = m' := Option.some.inj (hm.symm.trans hm')
  obtain ⟨hOwner, hMode⟩ : u.owner = some ⟨slot, true, mode, some goal, d⟩ ∧ (mode = .express ∨ mode = .hold) := by
    simpa only [Channel.ownerFollows, hState, hm, Option.bind_some, hBrake] using h.ownerIs
  have hNotReference : mode ≠ .reference := by rintro rfl; simp at hMode
  have hHold : u.holdTimer.isSome = true ↔ mode = .hold := by simpa [hOwner] using h.hold
  cases ended with
  | false =>
    rw [Channel.followed_preempted hOwner]
    refine ⟨⟨_, rfl, rfl, hPaused⟩, h.bridged, ?_, ?_, by simpa using hHold, hRamp, hRun⟩
    · exact (Channel.owned_iff rfl).2 ⟨slot, _, rfl, rfl⟩
    · rintro o ⟨⟩
      simp [hNotReference]
  | true =>
    rw [Channel.followed_ended hOwner]
    refine ⟨⟨_, rfl, rfl, rfl⟩, h.bridged.congr (by simp) (by simp) (by simp), ?_, ?_, ?_, by simpa using hRamp,
      by simpa using hRun⟩
    · exact (Channel.owned_iff rfl).2 ⟨slot, _, rfl, rfl⟩
    · rintro o ⟨⟩
      simp [hNotReference]
    · by_cases hm : mode = .hold <;> simp [hm]

theorem Channel.follows.dropped (h : x.follows) (cause : StopCause) : (x.dropMotion now cause).coherent :=
  Channel.coherent_dropMotion h.bridged (fun ho => absurd ho (Option.isSome_iff_ne_none.1 h.owned.1)) cause

theorem Channel.follows.paused (h : x.follows) : (x.pauseAfterBrake now .motion).coherent :=
  have ⟨_, hr, _, _⟩ := h.record
  Channel.coherent_pauseAfterBrake hr h.bridged h.owned h.goal h.hold h.ramp h.run

theorem Channel.follows.queued (h : x.follows) : (x.queueAfterBrake now).coherent := by
  obtain ⟨r, hr, hBrakes, hPaused⟩ := h.record
  have hBridged : (x.queueAfterBrake now).bridged := by
    unfold Channel.queueAfterBrake
    exact Channel.bridged.setBridge (h.bridged.congr (by simp) (by simp) (by simp)) ..
  refine Channel.coherent_queued (by simp) (m := r) (by simpa using hr) hBrakes hPaused (by simp) (by simp) hBridged
    (h.owned.congr hr (n := r) (by simpa using hr) (by simp) rfl rfl rfl) (h.goal.congr (by simp))
    (by simpa using h.hold) (by simp) ?_ ?_
  · simpa [Channel.queueAfterBrake] using h.ramp
  · simpa [Channel.queueAfterBrake] using h.run

theorem State.coherent.followMotion (h : s.coherent) {slot : Slot} {mode : Mode} {goal : Goal} {d : Dir} {ended : Bool}
    (hState : (s.ch c).mstate = .braking) (hm : (s.ch c).motion = some m)
    (hBrake : m.braking = some ⟨.motion slot mode goal d, ended⟩) :
    (Machine.followMotion c slot mode goal d m ended s).coherent := by
  have hFollows := (h.channel c).followed (now := s.clock) hState hm hBrake s.roughness (decide (s.band = .normal))
  rw [followMotion_eq rfl]
  generalize (s.ch c).followed s.clock s.roughness (decide (s.band = .normal)) slot mode goal d m ended = y at hFollows
  by_cases hLine : s.holdLine.level = true
  · rw [if_pos hLine, if_pos hLine]
    refine State.coherent.rest (s := s.setCh c _) (h.setStill hState ?_ ?_) rfl rfl rfl rfl
    · split
      · exact hFollows.dropped .hold
      · exact hFollows.paused
    · split <;> simp
  · rw [if_neg hLine, if_neg hLine]
    have hNew : c ∉ s.startQueue := fun hMem => by simpa [hState] using (h.queued c).1 hMem
    generalize hx : y.queueAfterBrake s.clock = x
    have hWaits : x.mstate = .queued := by rw [← hx]; simp
    have hCh : State.ch { s.setCh c x with startQueue := c :: s.startQueue } c = x := State.ch_setCh_self s c x
    refine h.oneChannel (c := c) ⟨fun d hd => State.ch_setCh_ne s x hd, rfl⟩ ?_ (List.nodup_cons.2 ⟨hNew, h.nodup⟩)
      (fun d hd => ⟨fun hMem => (List.mem_cons.1 hMem).resolve_left hd, List.mem_cons_of_mem c⟩) ?_
      (fun hl => absurd hl hLine) fun hp => ?_
    · rw [hCh, ← hx]; exact hFollows.queued
    · rw [hCh]; exact iff_of_true (List.mem_cons_self ..) hWaits
    · simp [h.config hp c] at hState

/-- The brake timer of a BRAKING channel expires (R92). -/
theorem State.coherent.endBrake (h : s.coherent) (hState : (s.ch c).mstate = .braking) :
    (Machine.endBrake c s).coherent := by
  obtain ⟨m, ⟨f, ended⟩, hm, hBrake, -⟩ := (h.channel c).braking hState
  cases f with
  | reversal => rw [endBrake_reversal hm hBrake]; exact h.formReversal hState hm hBrake
  | motion slot mode goal d => rw [endBrake_motion hm hBrake]; exact h.followMotion hState hm hBrake
  | none => rw [endBrake_idle hm hBrake rfl]; exact h.setStill hState ((h.channel c).enterIdle s.clock) (by simp)

end

end Sys2Proof.Machine
end

section
/-! PROOFS. The agreement of the part (O6), continued: what a grant makes of a channel and of the part. -/

namespace Sys2Proof.Machine

section
variable {s t : State} {c : Chan} {u x : Channel} {m : Motion} {now level : Nat} {normal : Bool} {g : Grant}

/-! ### What a grant makes of a channel (R102, R120) -/

/-- A new motion waits in the start queue (R80, R120). -/
theorem Channel.coherent.createMotion (h : u.coherent) (hState : u.mstate = .idle) {slot : Slot} {mode : Mode}
    {goal : Option Goal} (hGoal : mode = .reference ↔ goal = none) (d : Dir) :
    (u.createMotion now level normal slot mode goal d).coherent := by
  have hBridge := h.bridge
  simp only [Channel.bridgeFollows, hState] at hBridge
  obtain ⟨hOff, hDuty⟩ := hBridge
  have hBridged := h.bridged
  obtain ⟨-, -, -, -, -, -, -, -, hBrake, hRamp, hRun, -⟩ := h
  rw [Channel.createMotion_eq hState]
  refine Channel.coherent_queued rfl rfl rfl rfl hOff hDuty hBridged ?_ ?_ ?_ (by simpa [hState] using hBrake)
    (by simpa [hState] using hRamp) (by simpa [hState, MotionState.driving] using hRun)
  · exact (Channel.owned_iff rfl).2 ⟨slot, d, rfl, rfl⟩
  · rintro o ⟨⟩
    exact hGoal
  · by_cases hm : mode = .hold <;> simp [hm]

/-- The hold timer that a grant leaves goes with the mode of the owner it leaves. -/
theorem grantTimer_iff {mode : Mode} {n : Nat} {o : Owner} (ho : o.mode = mode) :
    (if mode = .hold then some n else none).isSome = true ↔ (some o).map (·.mode) = some .hold := by
  by_cases hm : mode = .hold <;> simp [hm, ho]

/-- A grant over a brake, or over a drive that it brakes, becomes its follow-on (R102). -/
theorem Channel.coherent_setFollowOn (hm : u.motion = some m) (hState : u.mstate = .braking) (hPaused : m.pausedFrom = none)
    (hBridge : u.bridge = .brake) (hDuty : u.duty = 0) (hBridged : u.bridged) (hBrake : u.brakeTimer.isSome = true)
    (hRamp : u.ramp = none) (hRun : u.runSince = none) (hMode : g.mode = .express ∨ g.mode = .hold) (d : Dir)
    (ended : Bool) : (u.setFollowOn now g d ended).coherent := by
  rw [Channel.setFollowOn_eq, hm]
  refine Channel.coherent_following hState rfl rfl hMode hPaused hBridge hDuty hBridged rfl ?_ hBrake hRamp hRun
  by_cases hh : g.mode = .hold <;> simp [hh]

theorem Channel.coherent.setFollowOn (h : u.coherent) (hState : u.mstate = .braking)
    (hMode : g.mode = .express ∨ g.mode = .hold) (d : Dir) (ended : Bool) :
    (u.setFollowOn now g d ended).coherent := by
  obtain ⟨m, b, hm, -, hPaused, hBridge, hDuty, hBrake, hRamp, hRun⟩ := h.braking hState
  exact Channel.coherent_setFollowOn hm hState hPaused hBridge hDuty h.bridged hBrake hRamp hRun hMode d ended

/-- A grant that turns a drive or a pause around (R102). -/
theorem Channel.coherent.turnAround (h : u.coherent) (hs : u.mstate ≠ .idle)
    (hMode : g.mode = .express ∨ g.mode = .hold) (d : Dir) :
    ((u.enterBraking now ⟨.none, false⟩).setFollowOn now g d false).coherent := by
  obtain ⟨m, hm⟩ := h.motion_some hs
  have hBridged : (u.enterBraking now ⟨.none, false⟩).bridged := by
    unfold Channel.enterBraking
    exact Channel.bridged.setBridge (h.bridged.congr (by simp) (by simp) (by simp)) ..
  exact Channel.coherent_setFollowOn (by rw [Channel.enterBraking_motion, hm]; rfl) (by simp) rfl (by simp) (by simp)
    hBridged (by simp) (by simp) (by simp) hMode d false

/-- A grant over a motion that waits, drives or is paused, no reversal among them, replaces it in place (R102). -/
theorem Channel.coherent.replaceMotion (h : u.coherent) (hm : u.motion = some m)
    (hState : u.mstate = .queued ∨ u.mstate = .starting ∨ u.mstate = .running ∨ u.pausedMaster = true)
    (hMode : g.mode = .express ∨ g.mode = .hold)
    (hDir : u.mstate = .queued ∨ g.dir = none ∨ g.dir = some m.dir) : (u.replaceMotion now g m).coherent := by
  have hNotReference : g.mode ≠ .reference := by rintro hr; simp [hr] at hMode
  have hGoal : (u.replaceMotion now g m).ownerGoal := by
    rw [Channel.replaceMotion_eq]
    rintro o ⟨⟩
    simp [hNotReference]
  have hHold : (u.replaceMotion now g m).holdTimer.isSome = true ↔
      (u.replaceMotion now g m).owner.map (·.mode) = some .hold := by
    rw [Channel.replaceMotion_eq]
    exact grantTimer_iff rfl
  have hBridged : (u.replaceMotion now g m).bridged := by rw [Channel.replaceMotion_eq]; exact h.bridged
  let n : Motion := { m with
    owner := some g.slot, mode := g.mode, goal := some g.goal, dir := g.dir.getD m.dir, runTime := 0 }
  have hRecord : (u.replaceMotion now g m).motion = some n := by rw [Channel.replaceMotion_eq]
  have hOwned : (u.replaceMotion now g m).owned := by
    refine (Channel.owned_iff hRecord).2 ⟨g.slot, g.dir.getD ((u.owner.map (·.dir)).getD m.dir), rfl, ?_⟩
    rw [Channel.replaceMotion_eq]
  have hKept : (u.replaceMotion now g m).mstate = u.mstate ∧ (u.replaceMotion now g m).bridge = u.bridge ∧
      (u.replaceMotion now g m).duty = u.duty ∧ (u.replaceMotion now g m).brakeTimer = u.brakeTimer ∧
      (u.replaceMotion now g m).ramp = u.ramp ∧
      (u.replaceMotion now g m).runSince = u.runSince.map fun _ => now / 1000 := by
    rw [Channel.replaceMotion_eq]
    exact ⟨rfl, rfl, rfl, rfl, rfl, rfl⟩
  have hWhole (hu : u.ownedWhole) (hd : g.dir = none ∨ g.dir = some m.dir) :
      (u.replaceMotion now g m).ownedWhole := by
    obtain ⟨i, -, ho⟩ := (Channel.ownedWhole_iff hm).1 hu
    refine (Channel.ownedWhole_iff hRecord).2 ⟨g.slot, rfl, ?_⟩
    rw [Channel.replaceMotion_eq, ho]
    rfl
  generalize u.replaceMotion now g m = v at *
  obtain ⟨hvState, hvBridge, hvDuty, hvBrake, hvRamp, hvRun⟩ := hKept
  have hDrives (hs : u.mstate = .starting ∨ u.mstate = .running) : v.coherent := by
    have hDriving : u.mstate.driving = true := by obtain hs | hs := hs <;> simp [hs, MotionState.driving]
    obtain ⟨m', hm', hBrakes, hPaused, hBridge, hBrake, hRun⟩ := h.driving hDriving
    obtain rfl : m = m' := Option.some.inj (hm.symm.trans hm')
    have hAligned : g.dir = none ∨ g.dir = some m.dir := hDir.resolve_left (by obtain hs | hs := hs <;> simp [hs])
    have hOwner := h.owned_driving hDriving
    rw [if_neg (by obtain hs | hs := hs <;> simp [hs])] at hOwner
    have hSame : n.dir = m.dir := by obtain hd | hd := hAligned <;> simp [n, hd]
    obtain ⟨-, -, -, -, -, -, -, -, -, hRamp, -⟩ := h
    exact Channel.coherent_driving (hvState ▸ hs) hRecord hBrakes hPaused (by rw [hvBridge, hBridge, hSame]) hBridged
      (hWhole hOwner hAligned) hGoal hHold (hvBrake.trans hBrake) (by rw [hvRamp, hvState]; exact hRamp)
      (by rw [hvRun, Option.isSome_map]; exact hRun)
  obtain hs | hs | hs | hs := hState
  · obtain ⟨m', hm', hBrakes, hPaused, hBridge, hDuty, hBrake, hRamp, hRun⟩ := h.resting (.inl hs)
    obtain rfl : m = m' := Option.some.inj (hm.symm.trans hm')
    exact Channel.coherent_queued (hvState.trans hs) hRecord hBrakes (by simpa [hs] using hPaused)
      (hvBridge.trans hBridge) (hvDuty.trans hDuty) hBridged hOwned hGoal hHold (hvBrake.trans hBrake)
      (hvRamp.trans hRamp) (by rw [hvRun, hRun]; rfl)
  · exact hDrives (.inl hs)
  · exact hDrives (.inr hs)
  · have hPausedState := Channel.pausedMaster_mstate hs
    obtain ⟨m', hm', hBrakes, -, hBridge, hDuty, hBrake, hRamp, hRun⟩ := h.resting (.inr hPausedState)
    obtain rfl : m = m' := Option.some.inj (hm.symm.trans hm')
    have hAligned : g.dir = none ∨ g.dir = some m.dir := hDir.resolve_left (by simp [hPausedState])
    have hFrom := (Channel.pausedMaster_iff hPausedState hm).1 hs
    have hPaused (y : PausedFrom) (hy : m.pausedFrom = some y) (ho : match y with
        | .motion => v.owned
        | .starting | .running => v.ownedWhole
        | .reversing | .reversal => v.owner = none) : v.coherent := by
      cases y <;> exact Channel.coherent_paused (hvState.trans hPausedState) hRecord hBrakes hy (hvBridge.trans hBridge)
        (hvDuty.trans hDuty) hBridged ho hGoal hHold (hvBrake.trans hBrake) (hvRamp.trans hRamp) (by rw [hvRun, hRun]; rfl)
    obtain hy | hy | hy := hFrom
    · exact hPaused _ hy (hWhole (h.owner_paused hPausedState hm hy) hAligned)
    · exact hPaused _ hy (hWhole (h.owner_paused hPausedState hm hy) hAligned)
    · exact hPaused _ hy hOwned

@[simp] theorem Channel.replaceMotion_mstate (u : Channel) (now : Nat) (g : Grant) (m : Motion) :
    (u.replaceMotion now g m).mstate = u.mstate := by
  rw [Channel.replaceMotion_eq]

@[simp] theorem Channel.setFollowOn_mstate (u : Channel) (now : Nat) (g : Grant) (d : Dir) (ended : Bool) :
    (u.setFollowOn now g d ended).mstate = u.mstate := by
  rw [Channel.setFollowOn_eq]

/-- What a grant over a motion that drives or is paused makes of its channel. -/
theorem Channel.coherent.replaceInFlight (h : u.coherent) (hm : u.motion = some m)
    (hState : u.mstate = .starting ∨ u.mstate = .running ∨ u.pausedMaster = true)
    (hMode : g.mode = .express ∨ g.mode = .hold) (hDir : g.dir = none ∨ g.dir = some m.dir) :
    u.eases (u.replaceInFlight now g m) := by
  have hReplaced := h.replaceMotion (now := now) hm (.inr hState) hMode (.inr hDir)
  have hActive : u.mstate ≠ .idle := by
    obtain hs | hs | hs := hState
    · simp [hs]
    · simp [hs]
    · simp [Channel.pausedMaster_mstate hs]
  unfold Channel.replaceInFlight
  dsimp only
  split
  · exact .of_braking (hReplaced.endMotion (by simpa using hActive) ..) (by simp) hActive
  · exact .of_mstate hReplaced (by simp)

/-- A grant that repeats the owned motion restarts its hold timer at most (R120). -/
theorem Channel.coherent.grantTimer (h : u.coherent) {o : Owner} (ho : u.owner = some o) (hMode : o.mode = .hold) :
    (u.grantTimer now .hold).drive = u.drive := by
  have hHold : u.holdTimer.isSome = true := h.hold.2 (by simp [ho, hMode])
  unfold Channel.drive Channel.grantTimer
  rw [hHold]
  rfl

/-- What a grant may make of a channel in agreement: it stays in agreement, keeps its place in the queue, joins the queue
from IDLE only and starts no drive. -/
structure Channel.heeds (u v : Channel) : Prop where
  coherent : v.coherent
  waits : u.mstate = .queued → v.mstate = .queued
  queued : v.mstate = .queued → u.mstate = .queued ∨ u.mstate = .idle
  driving : v.mstate.driving = true → u.mstate.driving = true
  idle : u.mstate = .idle → v.mstate = .idle ∨ v.mstate = .queued

theorem Channel.heeds.of_mstate (hx : x.coherent) (hs : x.mstate = u.mstate) : u.heeds x :=
  ⟨hx, hs.trans, fun hq => .inl (hs.symm.trans hq), (hs ▸ ·), fun hi => .inl (hs.trans hi)⟩

theorem Channel.eases.heeds (h : u.eases x) (hs : u.mstate ≠ .queued) : u.heeds x :=
  ⟨h.coherent, fun hq => absurd hq hs, .inl ∘ h.queued, h.driving, .inl ∘ h.idle⟩

theorem Channel.coherent.grant_inFlight (h : u.coherent) (hMode : g.mode = .express ∨ g.mode = .hold)
    (hNew : u.sameGrant g = false)
    (hState : u.mstate = .starting ∨ u.mstate = .running ∨ u.pausedMaster = true) :
    u.heeds (u.grant now level normal g) := by
  obtain ⟨hActive, hNot⟩ : u.mstate ≠ .idle ∧ u.mstate ≠ .queued := by
    obtain hs | hs | hs := hState
    · simp [hs]
    · simp [hs]
    · simp [Channel.pausedMaster_mstate hs]
  obtain ⟨m, hm⟩ := h.motion_some hActive
  rw [Channel.grant_inFlight hNew hm hState]
  split
  · next hDir => exact (h.replaceInFlight hm hState hMode hDir).heeds hNot
  · exact (Channel.eases.of_braking (h.turnAround hActive hMode _) (by simp) hActive).heeds hNot

/-- A grant on an IDLE channel: a still one changes nothing (R120). -/
theorem Channel.coherent.grant_idle (h : u.coherent) (hMode : g.mode = .express ∨ g.mode = .hold)
    (hNew : u.sameGrant g = false) (hState : u.mstate = .idle) : u.heeds (u.grant now level normal g) := by
  have hNotReference : g.mode ≠ .reference := by rintro hr; simp [hr] at hMode
  cases hDir : g.dir with
  | none => rw [Channel.grant_still hNew hDir (.inl hState)]; exact .of_mstate h rfl
  | some d =>
    have hGrant : u.grant now level normal g = u.createMotion now level normal g.slot g.mode (some g.goal) d := by
      unfold Channel.grant
      rw [if_neg (by simp [hNew]), hState]
      simp only [hDir]
    have hQueued : (u.grant now level normal g).mstate = .queued := by
      rw [hGrant, Channel.createMotion_eq hState]
    exact ⟨hGrant ▸ h.createMotion hState (by simp [hNotReference]) d, fun _ => hQueued, fun _ => .inr hState,
      fun hd => by simp [hQueued, MotionState.driving] at hd, fun _ => .inr hQueued⟩

theorem Channel.coherent.grant_repeated (h : u.coherent) (hRepeats : u.sameGrant g = true) :
    u.heeds (u.grant now level normal g) := by
  rw [Channel.grant_repeated hRepeats]
  split
  · next hHold =>
    unfold Channel.sameGrant at hRepeats
    cases ho : u.owner with
    | none => simp [ho] at hRepeats
    | some o =>
      simp only [ho, decide_eq_true_eq] at hRepeats
      exact .of_mstate (h.congr (h.grantTimer ho (hRepeats.2.1.trans hHold)) (.inr rfl)) rfl
  · exact .of_mstate h rfl

/-- A grant leaves a channel without a reversal in agreement (R102, R120). -/
theorem Channel.coherent.grant (h : u.coherent) (hMode : g.mode = .express ∨ g.mode = .hold)
    (hReverses : u.reverses = false) : u.heeds (u.grant now level normal g) := by
  by_cases hRepeats : u.sameGrant g = true
  · exact h.grant_repeated hRepeats
  have hNew : u.sameGrant g = false := by simpa using hRepeats
  cases hState : u.mstate with
  | idle => exact h.grant_idle hMode hNew hState
  | queued =>
    obtain ⟨m, hm⟩ := h.motion_some (by simp [hState])
    rw [Channel.grant_queued hNew hm hState]
    exact .of_mstate (h.replaceMotion hm (.inl hState) hMode (.inl hState)) (by simp)
  | starting => exact h.grant_inFlight hMode hNew (.inl hState)
  | running => exact h.grant_inFlight hMode hNew (.inr (.inl hState))
  | paused =>
    obtain ⟨hMaster, -⟩ | ⟨hReversal, -⟩ := h.paused_cases hState
    · exact h.grant_inFlight hMode hNew (.inr (.inr hMaster))
    · simp [Channel.reverses, hReversal] at hReverses
  | reversing => simp [Channel.reverses, hState] at hReverses
  | braking =>
    obtain ⟨m, ⟨f, ended⟩, hm, hBrake, -⟩ := h.braking hState
    cases f with
    | motion slot mode goal d =>
      rw [Channel.grant_following hNew hm hState hBrake]
      exact .of_mstate (h.setFollowOn hState hMode _ _) (by simp)
    | reversal => simp [Channel.reverses, hState, hm, hBrake] at hReverses
    | none =>
      cases hDir : g.dir with
      | none => rw [Channel.grant_still hNew hDir (.inr ⟨hState, by simp [hm, hBrake]⟩)]; exact .of_mstate h rfl
      | some d =>
        rw [Channel.grant_braking hNew hm hState hBrake hDir]
        exact .of_mstate (h.setFollowOn hState hMode d ended) (by simp)

/-! ### A grant in the part (R120, R132) -/

/-- One channel heeds a grant in RUN, and joins the tail of the queue where it waits newly. -/
theorem State.coherent.granted (h : s.coherent) (hRun : s.partState = .run) (hHeeds : (s.ch c).heeds x) :
    (if (s.ch c).mstate = .idle ∧ x.mstate = .queued then
      { s.setCh c x with startQueue := s.startQueue ++ [c] } else s.setCh c x).coherent := by
  split
  · next hJoins =>
    obtain ⟨hIdle, hQueued⟩ := hJoins
    have hNew : c ∉ s.startQueue := fun hMem => by simpa [hIdle] using (h.queued c).1 hMem
    have hCh : State.ch { s.setCh c x with startQueue := s.startQueue ++ [c] } c = x := State.ch_setCh_self s c x
    refine h.oneChannel (c := c) ⟨fun d hd => State.ch_setCh_ne s x hd, rfl⟩ (hCh.symm ▸ hHeeds.coherent) ?_
      (fun d hd => ?_) ?_ (fun _ => by rw [hCh, hQueued]; rfl) fun hp => absurd (hRun.symm.trans hp) nofun
    · exact List.nodup_append.2 ⟨h.nodup, List.nodup_singleton c, fun d hd e he => by
        rintro rfl; exact hNew (List.mem_singleton.1 he ▸ hd)⟩
    · simp [hd]
    · rw [hCh]; exact iff_of_true (by simp) hQueued
  · next hStays =>
    refine h.setCh ⟨hHeeds.coherent, fun hq => ?_, hHeeds.driving, fun hi => ?_⟩ hHeeds.waits
    · exact (hHeeds.queued hq).resolve_right fun hi => hStays ⟨hi, hq⟩
    · exact (hHeeds.idle hi).resolve_right fun hq => hStays ⟨hi, hq⟩

theorem State.coherent.grantTo (h : s.coherent) (hRun : s.partState = .run)
    (hMode : g.mode = .express ∨ g.mode = .hold) (hReverses : (s.ch c).reverses = false) :
    (Machine.grantTo c g s).coherent := by
  rw [grantTo_judged rfl rfl]
  have hGranted := h.granted hRun ((h.channel c).grant (now := s.clock) (level := s.roughness)
    (normal := decide (s.band = .normal)) hMode hReverses)
  split
  · exact hGranted.judgeStrip c
  · exact hGranted

end

end Sys2Proof.Machine
end

section
/-! PROOFS. The agreement of the part (O6), continued: the events that reach every channel, and the part states. -/

namespace Sys2Proof.Machine

section
variable {s t : State} {c : Chan} {u : Channel}

theorem State.coherent.forChans (h : s.coherent) {f : Chan → State → State} (hf : ∀ c s, s.coherent → (f c s).coherent) :
    (Machine.forChans f s).coherent := forChans_induct State.coherent h hf

/-- A change of every channel by itself that the agreement does not read. -/
theorem State.coherent.forChans_unread (h : s.coherent) {f : Channel → Channel} (hDrive : ∀ u, (f u).drive = u.drive)
    (hDuty : ∀ u, (f u).duty = u.duty) : (Machine.forChans (fun c s => s.modCh c f) s).coherent :=
  h.forChans fun _ _ hs => hs.modCh_unread (hDrive _) (hDuty _)

/-! ### Stops of many channels -/

theorem State.coherent.stopMask (h : s.coherent) (mask : Nat) : (Machine.stopMask mask s).coherent := by
  refine h.forChans fun c s hs => ?_
  split
  · exact hs.stopRequest ..
  · exact hs

theorem State.coherent.lockChannel (h : s.coherent) (slots : Nat) (c : Chan) :
    (Machine.lockChannel slots c s).coherent := by
  unfold Machine.lockChannel
  extract_lets stops s1
  have hLocked : s1.coherent := h.modCh_unread rfl rfl
  split
  · exact hLocked.stopRequest ..
  · exact hLocked

theorem State.coherent.unlockChannel (h : s.coherent) (slots : Nat) (c : Chan) :
    (Machine.unlockChannel slots c s).coherent := h.modCh_unread rfl rfl

theorem State.coherent.bandStops (h : s.coherent) (b : Band) : (Machine.bandStops b s).coherent := by
  rw [bandStops_eq]
  refine h.forChans fun c s hs => ?_
  split
  · exact hs.stopRequest ..
  · exact hs

theorem State.coherent.changeBand (h : s.coherent) (b : Band) : (Machine.changeBand b s).coherent := by
  have hSupplied (left : Bool) (v : State) (hv : v.coherent) : (Machine.forChans (fun c s =>
      s.modCh c (·.mapMotion fun m => { m with supplyNormal := m.supplyNormal && !left })) v).coherent :=
    hv.forChans_unread (Channel.mapMotion_drive fun _ => by rfl) fun _ => rfl
  have hNew : State.coherent { s with band := b } := h.rest rfl rfl rfl rfl
  unfold Machine.changeBand
  split
  · exact h
  · exact (hSupplied _ _ hNew).bandStops b

theorem State.coherent.takeSample (h : s.coherent) (code : Nat) : (Machine.takeSample code s).coherent := by
  have hNew (l : List Nat) (v : Nat) : State.coherent { s with samples := l, volts := v } := h.rest rfl rfl rfl rfl
  exact (hNew _ _).changeBand _

theorem State.coherent.setRoughness (h : s.coherent) (n : Nat) : (Machine.setRoughness n s).coherent := by
  have hNew : State.coherent { s with roughness := n } := h.rest rfl rfl rfl rfl
  unfold Machine.setRoughness
  split
  · exact h
  · exact hNew.forChans_unread (fun u => Channel.mapMotion_drive (fun m => by split <;> rfl) u) fun _ => rfl

/-! ### The hold line (R104 to R106, R144 to R147) -/

theorem State.coherent.expireHoldLimit (h : s.coherent) : (Machine.expireHoldLimit s).coherent := by
  have hNew : State.coherent { s with holdLimitTimer := none, limitExpired := true } := h.rest rfl rfl rfl rfl
  refine hNew.forChans fun c s hs => ?_
  split
  · next hMaster =>
    exact hs.modCh (.of_idle ((hs.channel c).dropMotion s.clock .hold) (by simp)) fun hq => by
      simp [Channel.pausedMaster_mstate hMaster] at hq
  · split
    · next hQueued =>
      have hLeaves : Machine.stopRequest c .hold s = leaveQueue c .hold s := by
        unfold Machine.stopRequest
        simp only [hQueued]
      exact hLeaves ▸ hs.stopRequest ..
    · exact hs

/-- An assertion pauses what drives, so that no bridge drives while the line is ASSERTED (R104, R144). -/
theorem State.coherent.assertHold (h : s.coherent) {line : Filter} (now sampled : Nat) :
    (Machine.assertHold { s with clock := now, holdLine := line, holdSampled := sampled }).coherent := by
  have hAssert : Machine.assertHold { s with clock := now, holdLine := line, holdSampled := sampled } = { s with
      clock := now, holdLine := line, holdSampled := sampled
      holdLimitTimer := some (now / 1000 + s.globals.holdLimit), limitExpired := false
      channels := PerChan.ofFn fun c => (s.ch c).pauseForHold now } := rfl
  have hCh (c : Chan) : (Machine.assertHold { s with clock := now, holdLine := line, holdSampled := sampled }).ch c =
      (s.ch c).pauseForHold now := by
    rw [hAssert]
    exact PerChan.get_ofFn ..
  refine .of_channels (fun c => ?_) h.nodup (fun c => ?_) (fun _ c => ?_) fun hp c => ?_ <;> rw [hCh] <;>
    obtain ⟨hCoherent, hStill, hQueued, hIdle⟩ := (h.channel c).pauseForHold now
  · exact hCoherent
  · rw [hQueued]; exact h.queued c
  · exact hStill
  · exact hIdle (h.config hp c)

/-- What a release makes of a channel: what was PAUSED drives, brakes, waits or is IDLE; the rest stays (R105, R147). -/
theorem Channel.coherent.released (h : u.coherent) (now : Nat) (resumes : Bool) :
    (u.released now resumes).coherent ∧
      ((u.released now resumes).mstate = .queued ↔
        (resumes = true ∧ u.pausedMaster = true) ∨ u.mstate = .queued) ∧
      (u.mstate = .idle → (u.released now resumes).mstate = .idle) := by
  unfold Channel.released
  by_cases hReversal : u.pausedReversal = true
  · have hState := Channel.pausedReversal_mstate hReversal
    obtain ⟨-, hNot, -⟩ | ⟨-, hMaster, hOwner⟩ := h.paused_cases hState
    · exact absurd hReversal (by simp [hNot])
    obtain ⟨m, hm, -, -, -, -, -, hRamp, -⟩ := h.resting (.inr hState)
    simp only [if_pos hReversal, hm]
    have hHold := h.holdOwned hOwner
    split
    · exact ⟨Channel.coherent_completed hm h.bridged hOwner hHold, by simp [hMaster, hState], by simp [hState]⟩
    · exact ⟨Channel.coherent_driveReversal hm h.bridged hOwner hHold hRamp, by simp [hMaster, hState], by simp [hState]⟩
  · rw [if_neg hReversal]
    by_cases hMaster : u.pausedMaster = true
    · have hState := Channel.pausedMaster_mstate hMaster
      rw [if_pos hMaster]
      cases resumes with
      | true => exact ⟨h.resume hMaster, by simp [Channel.resume, hMaster], by simp [hState]⟩
      | false => exact ⟨h.dropMotion now .hold, by simp [hState], by simp⟩
    · rw [if_neg hMaster]
      exact ⟨h, by simp [hMaster], id⟩

theorem State.coherent.releaseHold (h : s.coherent) {line : Filter} (hLine : line.level = false) (now sampled : Nat) :
    (Machine.releaseHold { s with clock := now, holdLine := line, holdSampled := sampled }).coherent := by
  rw [releaseHold_eq]
  dsimp only
  generalize (s.globals.autoResume && !s.limitExpired) = resumes
  have hAll : Chan.all.Nodup := by decide
  have hChannel (c : Chan) := (h.channel c).released now resumes
  have hCh (q : List Chan) (l : List Incident) (c : Chan) : State.ch { s with
      clock := now, holdLine := line, holdSampled := sampled, holdLimitTimer := none, limitExpired := false
      channels := PerChan.ofFn fun c => (s.ch c).released now resumes
      startQueue := q, incidents := l } c = (s.ch c).released now resumes := PerChan.get_ofFn ..
  refine .of_channels (fun c => ?_) ?_ (fun c => ?_) (fun hl => absurd (hLine.symm.trans hl) nofun) fun hp c => ?_
  · exact (hCh _ _ c).symm ▸ (hChannel c).1
  · refine List.nodup_append.2 ⟨hAll.filter _, h.nodup, fun a ha b hb hab => ?_⟩
    subst hab
    obtain ⟨-, hBack⟩ := List.mem_filter.1 ha
    have hPaused := Channel.pausedMaster_mstate (Bool.and_eq_true_iff.1 hBack).2
    have hWaits : (s.ch a).mstate = .queued := (h.queued a).1 hb
    exact absurd (hPaused.symm.trans hWaits) nofun
  · refine Iff.trans ?_ (((hCh _ _ c).symm ▸ (hChannel c).2.1.symm :))
    rw [List.mem_append, List.mem_filter, Bool.and_eq_true, h.queued]
    exact or_congr_left (and_iff_right (Chan.mem_all c))
  · exact (hCh _ _ c).symm ▸ (hChannel c).2.2 (h.config hp c)

/-- A sample that accepts no change leaves the level of its line (R1). -/
theorem Filter.sampleRun_level {f : Filter} {t0 time stable : Nat} {raw : Bool}
    (h : (f.sampleRun t0 raw time stable).2.2 = false) : (f.sampleRun t0 raw time stable).1.level = f.level := by
  have hSee : (f.see t0 raw time).level = f.level := by
    unfold Filter.see
    split
    · rfl
    · split <;> rfl
  unfold Filter.sampleRun at h ⊢
  dsimp only at h ⊢
  cases hDue : (f.see t0 raw time).due with
  | none => exact hSee
  | some d =>
    rw [hDue] at h
    by_cases hEarly : t0 + stable < d
    · simp only [hEarly, if_true]; exact hSee
    · simp [hEarly] at h

theorem State.coherent.sampleHold (h : s.coherent) (level : Bool) (stable : Nat) :
    (Machine.sampleHold level stable s).coherent := by
  unfold Machine.sampleHold
  generalize hx : s.holdLine.sampleRun (max s.clock (s.holdSampled + 1)) level Config.holdFilter stable = x
  dsimp only
  by_cases hAccepts : x.2.2 = true
  · rw [if_pos hAccepts]
    split
    · exact h.assertHold ..
    · next hLevel => exact h.releaseHold (by simpa using hLevel) ..
  · rw [if_neg hAccepts]
    refine h.rest rfl rfl ?_ rfl
    subst hx
    exact Filter.sampleRun_level (by simpa using hAccepts)

/-! ### Part states (R182 to R185) -/

theorem State.coherent.leaveConfig (h : s.coherent) : (Machine.leaveConfig s).coherent := by
  have hFreed : State.coherent { s with staging := none } := h.rest rfl rfl rfl rfl
  have hClamped := hFreed.forChans_unread (f := fun ch => { ch with tune := ch.tune.clamped }) (fun _ => rfl)
    fun _ => rfl
  unfold Machine.leaveConfig
  generalize Machine.forChans (fun c s => s.modCh c fun ch => { ch with tune := ch.tune.clamped })
    { s with staging := none } = v at hClamped
  exact .of_channels hClamped.channel hClamped.nodup hClamped.queued hClamped.released nofun

/-- The part enters CONFIG with every channel IDLE (R184). -/
theorem State.coherent.enterConfig (h : s.coherent) (hIdle : s.allIdle = true) (timer : Timer) :
    State.coherent { s with partState := .config, configTimer := timer } := by
  refine .of_channels h.channel h.nodup h.queued h.released fun _ c => ?_
  have hEach := List.all_eq_true.1 hIdle c (Chan.mem_all c)
  exact of_decide_eq_true hEach

end

end Sys2Proof.Machine
end

section
/-! PROOFS. The agreement of the part (O6), continued: the requests of the ownership unit. -/

namespace Sys2Proof.Machine

section
variable {s t : State} {c : Chan} {g : Grant}

/-! ### MOVE and GROUP (R116 to R129) -/

/-- The agreement of a part in RUN, which every MOVE and GROUP finds and leaves. -/
structure State.runs (s : State) : Prop where
  coherent : s.coherent
  run : s.partState = .run

theorem State.runs.grantTo (h : s.runs) (hMode : g.mode = .express ∨ g.mode = .hold)
    (hReverses : (s.ch c).reverses = false) : (Machine.grantTo c g s).runs :=
  ⟨h.coherent.grantTo h.run hMode hReverses, (grantTo_oneChannel c g s).partState.trans h.run⟩

theorem State.runs.modCh_unread (h : s.runs) {f : Channel → Channel} (hDrive : (f (s.ch c)).drive = (s.ch c).drive)
    (hDuty : (f (s.ch c)).duty = (s.ch c).duty) : (s.modCh c f).runs :=
  ⟨h.coherent.modCh_unread hDrive hDuty, h.run⟩

/-- A channel that passes the checks holds no reversal (R118 check 8). -/
theorem State.refuses_reverses (h : s.refuses c g = none) : (s.ch c).reverses = false := by
  unfold State.refuses at h
  dsimp only at h
  split at h
  · cases h
  · split at h
    · cases h
    · next hReverses => simpa using hReverses

/-- Check 12: a grant, a refresh of the owner's HOLD motion, or nothing (R119, R120). -/
theorem State.runs.arbitrate (h : s.runs) (hMode : g.mode = .express ∨ g.mode = .hold)
    (hReverses : (s.ch c).reverses = false) (clamped : Bool) : (Machine.arbitrate c g clamped s).1.runs := by
  unfold Machine.arbitrate
  split
  · exact h.grantTo hMode hReverses
  · next o hOwner =>
    split
    · next hRefresh =>
      unfold isRefresh at hRefresh
      obtain ⟨-, -, hHold, -⟩ := of_decide_eq_true hRefresh
      exact h.modCh_unread ((h.coherent.channel c).grantTimer hOwner hHold) rfl
    · split
      · exact h.grantTo hMode hReverses
      · exact h

theorem State.runs.decideMove (h : s.runs) (hMode : g.mode = .express ∨ g.mode = .hold) (c : Chan) (clamped : Bool) :
    (Machine.decideMove c g clamped s).1.runs := by
  unfold Machine.decideMove
  split
  · exact h
  · next hPasses => exact h.arbitrate hMode (State.refuses_reverses hPasses) clamped

theorem State.runs.moveChannel (h : s.runs) {mode : Mode} (hMode : mode = .express ∨ mode = .hold) (c : Chan)
    (slot : Slot) (k : GoalKind) (x : Int) : (Machine.moveChannel c slot mode k x s).1.runs := by
  unfold Machine.moveChannel
  split
  · exact h
  · extract_lets g
    split
    · exact h.modCh_unread rfl rfl
    · exact (h.modCh_unread (f := (·.dropLatch slot)) rfl rfl).decideMove hMode c _

theorem State.coherent.handleMove (h : s.coherent) (slot : Slot) (d : List Byte) :
    (Machine.handleMove slot d s).1.coherent := by
  unfold Machine.handleMove
  split
  · exact h
  · next hRun =>
    have hRuns : s.runs := ⟨h, by simpa using hRun⟩
    split
    · next c mode k _ hMode _ =>
      have hMoved := (hRuns.moveChannel (moveModeOf_cases hMode) c slot k (signedAt d 4)).coherent
      split <;> next hx => rw [hx] at hMoved; exact hMoved
    · exact h

theorem State.runs.groupChannels (h : s.runs) (slot : Slot) (e : GoalEnd) (mask : Nat) (l : List Chan) :
    (Machine.groupChannels slot e mask l s).1.runs := by
  induction l generalizing s with
  | nil => exact h
  | cons c l ih =>
    have hOne : (groupChannel c slot e s).1.runs := by
      unfold groupChannel
      split
      · exact h
      · exact h.decideMove (.inl rfl) c _
    unfold Machine.groupChannels
    split
    · exact ih hOne
    · exact ih h

theorem State.coherent.handleGroup (h : s.coherent) (slot : Slot) (d : List Byte) :
    (Machine.handleGroup slot d s).1.coherent := by
  unfold Machine.handleGroup
  dsimp only
  split
  · exact h
  · next hRun =>
    have hRuns : s.runs := ⟨h, by simpa using hRun⟩
    split
    · exact h
    · exact (hRuns.groupChannels ..).coherent

/-! ### REFERENCE and LOCKOUT (R114, R115, R130) -/

/-- A seek waits at the tail of the queue (R130). -/
theorem State.coherent.queueReference (h : s.coherent) (hRun : s.partState = .run) (hState : (s.ch c).mstate = .idle)
    (slot : Slot) : State.coherent { s.modCh c (·.createMotion s.clock s.roughness true slot .reference none .dec) with
      startQueue := s.startQueue ++ [c] } := by
  have hCreated := (h.channel c).createMotion (now := s.clock) (level := s.roughness) (normal := true) hState
    (slot := slot) (mode := .reference) (goal := none) (by simp) .dec
  have hQueued : ((s.ch c).createMotion s.clock s.roughness true slot .reference none .dec).mstate = .queued := by
    rw [Channel.createMotion_eq hState]
  have hGranted := h.granted (c := c) hRun ⟨hCreated, fun _ => hQueued, fun _ => .inr hState,
    fun hd => by simp [hQueued, MotionState.driving] at hd, fun _ => .inr hQueued⟩
  rwa [if_pos ⟨hState, hQueued⟩] at hGranted

theorem State.coherent.handleReference (h : s.coherent) (slot : Slot) (d : List Byte) :
    (Machine.handleReference slot d s).1.coherent := by
  unfold Machine.handleReference
  dsimp only
  split
  · exact h
  · next hRun =>
    cases Chan.ofNat? (byteAt d 1) with
    | none => exact h
    | some c =>
      dsimp only
      split
      · exact h
      · split
        · exact h
        · split
          · exact h
          · next hIdle =>
            split
            · exact h
            · exact h.queueReference (by simpa using hRun) (by simpa using hIdle) slot

theorem State.coherent.handleLockout (h : s.coherent) (slot : Slot) (d : List Byte) :
    (Machine.handleLockout slot d s).1.coherent := by
  have hAct {f : Nat → Chan → State → State} (hf : ∀ n c (s : State), s.coherent → (f n c s).coherent) :
      (Machine.forChans (fun c s => if inMask (byteAt d 1) c then f (byteAt d 2) c s else s) s).coherent := by
    refine h.forChans fun c s hs => ?_
    split
    · exact hf _ c s hs
    · exact hs
  unfold Machine.handleLockout
  dsimp only
  split
  · exact hAct fun n c _ hs => hs.lockChannel n c
  · exact hAct fun n c _ hs => hs.unlockChannel n c
  · exact h

theorem State.coherent.handleQuery (h : s.coherent) (slot : Slot) (d : List Byte) :
    (Machine.handleQuery slot d s).1.coherent := by
  unfold Machine.handleQuery
  split
  · exact h
  · exact h.modCh_unread rfl rfl

end

end Sys2Proof.Machine
end

section
/-! PROOFS. The agreement of the part (O6), concluded: the other requests, the timers, the bus, and every step. -/

namespace Sys2Proof.Machine

section
variable {s t : State} {c : Chan}

/-! ### The requests of the profile store and of the service blocks -/

theorem State.coherent.handReadout (h : s.coherent) : (Machine.handReadout s).coherent := by
  rw [handReadout_eq]
  exact h.rest rfl rfl rfl rfl

theorem State.coherent.handleProfileRead (h : s.coherent) (slot : Slot) (d : List Byte) :
    (Machine.handleProfileRead slot d s).1.coherent := by
  have hCaptured (r : Readout) : State.coherent { s with readout := some r } := h.rest rfl rfl rfl rfl
  unfold Machine.handleProfileRead
  dsimp only
  split
  · exact h
  · exact h
  · exact (hCaptured _).handReadout

theorem State.coherent.restoring (h : s.coherent) {act : State × Sends} (hAct : act.1.coherent) (trailer : List Nat) :
    (Machine.restoring trailer act s).1.coherent := by
  unfold Machine.restoring
  split
  · exact h
  · exact hAct

theorem State.coherent.staged (h : s.coherent) (l : Option Staging) : State.coherent { s with staging := l } :=
  h.rest rfl rfl rfl rfl

theorem State.coherent.handleRestoreBegin (h : s.coherent) (slot : Slot) (d : List Byte) :
    (Machine.handleRestoreBegin slot d s).1.coherent := by
  unfold Machine.handleRestoreBegin
  refine h.restoring ?_ _
  split
  · exact h
  · split
    · exact h
    · split
      · exact h
      · exact h.staged _

theorem State.coherent.handleRestoreData (h : s.coherent) (slot : Slot) (d : List Byte) :
    (Machine.handleRestoreData slot d s).1.coherent := by
  unfold Machine.handleRestoreData
  refine h.restoring ?_ _
  split
  · exact h
  · split
    · exact h
    · split
      · exact h.staged _
      · exact h.staged none

theorem State.coherent.installLoad (h : s.coherent) (l : Staging) (p : Int) (flag : Bool) :
    (Machine.installLoad l p flag s).1.coherent := by
  unfold Machine.installLoad
  extract_lets s1
  have hInstalled : s1.coherent := h.modCh_unread rfl rfl
  split
  · exact hInstalled.modCh_unread rfl rfl
  · exact hInstalled

theorem State.coherent.handleRestoreEnd (h : s.coherent) (slot : Slot) (d : List Byte) :
    (Machine.handleRestoreEnd slot d s).1.coherent := by
  unfold Machine.handleRestoreEnd
  refine h.restoring ?_ _
  cases s.staging with
  | none => exact h
  | some l =>
    dsimp only
    split
    · exact h
    · split
      · exact h.staged none
      · split
        · exact h.staged none
        · split
          · exact h.staged none
          · exact (h.staged none).installLoad ..

theorem State.coherent.handleVehicle (h : s.coherent) (slot : Slot) (d : List Byte) :
    (Machine.handleVehicle slot d s).1.coherent := by
  have hTimer (τ : Timer) : State.coherent { s with vehicleTimer := τ } := h.rest rfl rfl rfl rfl
  exact (hTimer _).setRoughness _

theorem State.coherent.handleIncidentRead (h : s.coherent) (slot : Slot) (d : List Byte) :
    (Machine.handleIncidentRead slot d s).1.coherent := by
  unfold Machine.handleIncidentRead
  dsimp only
  split <;> exact h

theorem State.coherent.handleClear (h : s.coherent) (slot : Slot) (d : List Byte) :
    (Machine.handleClear slot d s).1.coherent := by
  have hMasked {s : State} (h : s.coherent) {f : Channel → Channel} (hDrive : ∀ u, (f u).drive = u.drive)
      (hDuty : ∀ u, (f u).duty = u.duty) :
      (Machine.forChans (fun c s => if inMask (byteAt d 2) c then s.modCh c f else s) s).coherent := by
    refine h.forChans fun c s hs => ?_
    split
    · exact hs.modCh_unread (hDrive _) (hDuty _)
    · exact hs
  unfold Machine.handleClear
  extract_lets sel masked s1 s2 s3
  have h1 : s1.coherent := by
    unfold s1
    split
    · exact hMasked h (fun _ => rfl) fun _ => rfl
    · exact h
  have h2 : s2.coherent := by
    unfold s2
    split
    · exact hMasked h1 (fun _ => rfl) fun _ => rfl
    · exact h1
  change s3.coherent
  unfold s3
  split
  · exact h2.rest rfl rfl rfl rfl
  · exact h2

theorem State.coherent.handleConfig (h : s.coherent) (slot : Slot) (d : List Byte) :
    (Machine.handleConfig slot d s).1.coherent := by
  unfold Machine.handleConfig
  split
  · exact h
  · split
    · next hIdle => exact h.enterConfig hIdle _
    · exact h

theorem State.coherent.handleStart (h : s.coherent) (slot : Slot) (d : List Byte) :
    (Machine.handleStart slot d s).1.coherent := by
  unfold Machine.handleStart
  split
  · exact h
  · exact h.leaveConfig

theorem Channel.tuneTo_unread (n v : Nat) (u : Channel) : (u.tuneTo n v).drive = u.drive ∧
    (u.tuneTo n v).duty = u.duty := by
  have hTuned (w : Channel) : (w.tuned n).drive = w.drive ∧ (w.tuned n).duty = w.duty := by
    unfold Channel.tuned
    split
    · exact ⟨rfl, rfl⟩
    · split
      · exact ⟨rfl, rfl⟩
      · split <;> exact ⟨rfl, rfl⟩
  unfold Channel.tuneTo
  split
  · exact ⟨rfl, rfl⟩
  · exact hTuned _

theorem State.coherent.handleTune (h : s.coherent) (slot : Slot) (d : List Byte) :
    (Machine.handleTune slot d s).1.coherent := by
  unfold Machine.handleTune
  dsimp only
  split
  · exact h
  · split
    · exact h
    · exact h.modCh_unread (Channel.tuneTo_unread ..).1 (Channel.tuneTo_unread ..).2
    · exact h.rest rfl rfl rfl rfl
    · exact h.rest rfl rfl rfl rfl

/-! ### The dispatcher and the bus -/

theorem State.coherent.handFrame (h : s.coherent) (f : Frame) : (Machine.handFrame f s).coherent := by
  rw [handFrame_eq]
  exact h.rest rfl rfl rfl rfl

theorem State.coherent.conclude {x : State × Sends} (h : x.1.coherent) (slot : Slot) (kind : Nat) :
    (Machine.conclude slot kind x).coherent := by
  unfold Machine.conclude
  dsimp only
  split
  · exact h.flush
  · exact h.flush.handFrame _
  · next fs _ =>
    have hHanded (fs : List Frame) : ∀ {u : State}, u.coherent →
        (fs.foldl (fun s f => Machine.handFrame f s) u).coherent := by
      induction fs with
      | nil => exact id
      | cons f fs ih => exact fun hu => ih (hu.handFrame f)
    exact hHanded fs h.flush

/-- A request is served by a handling that keeps the agreement. -/
theorem State.coherent.serve (h : s.coherent) (k : RequestKind)
    {handle : Slot → List Byte → State → State × Sends}
    (hHandle : ∀ slot d (s : State), s.coherent → (handle slot d s).1.coherent) :
    (Machine.serve k handle s).coherent := by
  have hScreened (r : Request) {s : State} (h : s.coherent) : (screened k handle r s).1.coherent := by
    unfold screened
    split
    · exact h
    · split
      · exact h
      · refine hHandle _ _ _ ?_
        unfold touchConfig
        split
        · exact h.rest rfl rfl rfl rfl
        · exact h
  unfold Machine.serve
  split
  · next r rest _ _ =>
    split
    · exact State.coherent.conclude (hScreened r (s := { s with normal := rest }) (h.rest rfl rfl rfl rfl)) ..
    · exact h
  · exact h

theorem State.coherent.txLeave (h : s.coherent) : (Machine.txLeave s).coherent := by
  rw [txLeave_eq]
  exact h.rest rfl rfl rfl rfl

theorem State.coherent.raiseErrors (h : s.coherent) : (Machine.raiseErrors s).coherent := by
  unfold Machine.raiseErrors
  split <;> exact h.rest rfl rfl rfl rfl

theorem State.coherent.place (h : s.coherent) (slot : Slot) (d : List Byte) : (Machine.place slot d s).coherent := by
  unfold Machine.place
  split
  · split
    · exact h.rest rfl rfl rfl rfl
    · exact h
  · split
    · exact h.rest rfl rfl rfl rfl
    · exact h.handFrame _

/-! ### Every command -/

/-- The outcome of a command, if it goes on, is a part in agreement. -/
def leavesCoherent (x : Host.Outcome State Fault Refusal) : Prop := ∀ t, x = .next t → t.coherent

theorem leavesCoherent.next (h : t.coherent) : leavesCoherent (.next t) :=
  fun _ ht => Host.Outcome.next.inj ht ▸ h

theorem leavesCoherent.flush (h : t.coherent) : leavesCoherent (.next (Machine.flush t)) := .next h.flush

theorem State.coherent.stallTimerExpiry (h : s.coherent) (c : Chan) : leavesCoherent (execStallTimerExpiry c s) := by
  unfold execStallTimerExpiry
  split
  · next d hTimer =>
    refine .flush ((h.waitUntil d).stall ?_)
    have hDrives : (s.ch c).drives = true := (h.channel c).bridged.2.symm.trans (by rw [hTimer]; rfl)
    exact (h.channel c).drives_eq.symm.trans hDrives
  · exact .next h

theorem State.coherent.rampTimers (h : s.coherent) (c : Chan) :
    leavesCoherent (execRampEnd c s) ∧ leavesCoherent (execRampDutyRecompute c s) := by
  constructor
  · unfold execRampEnd
    split
    · next hState _ => exact .flush ((h.waitUntil _).rampEnd hState)
    · exact .next h
  · unfold execRampDutyRecompute
    split
    · next r hState _ => exact .next ((h.waitUntil _).rampDuty hState _ _)
    · exact .next h

theorem State.coherent.brakeExpiry (h : s.coherent) (c : Chan) : leavesCoherent (execBrakeExpiry c s) := by
  unfold execBrakeExpiry
  split
  · next d hTimer =>
    refine .flush ((h.waitUntil d).endBrake ?_)
    obtain ⟨-, -, -, -, -, -, -, -, hBrake, -⟩ := h.channel c
    exact hBrake.1 (by rw [hTimer]; rfl)
  · exact .next h

/-- The hold timer that runs out belongs to an owner (R123). -/
theorem State.coherent.holdTimerExpiry (h : s.coherent) (c : Chan) : leavesCoherent (execHoldTimerExpiry c s) := by
  unfold execHoldTimerExpiry
  split
  · exact .flush ((h.waitUntil _).stopRequest_rid (c := c) (τ := none) (fun _ => rfl) .timeout)
  · exact .next h

theorem State.coherent.admission (h : s.coherent) : leavesCoherent (execAdmission s) := by
  unfold execAdmission
  split
  · next c rest hQueue =>
    split
    · next hMay =>
      unfold State.mayAdmit at hMay
      simp only [Bool.and_eq_true, Bool.not_eq_true'] at hMay
      exact .flush (h.admitHead hQueue hMay.2)
    · exact .next h
  · exact .next h

/-- The timers that clear what they guard. -/
theorem State.coherent.exec_guard (h : s.coherent) {i : Instr} (hi : match i with
    | .latchTimerExpiry .. | .startSpacingExpiry | .strikeWindowExpiry _ | .stagingTimerExpiry | .vehicleDataHoldExpiry
    | .configIdleExpiry | .busQuietExpiry | .holdLimitExpiry | .runTimeLimitExpiry _ => True
    | _ => False) : leavesCoherent (exec i s) := by
  cases i with
  | latchTimerExpiry c slot =>
    change leavesCoherent (execLatchTimerExpiry c slot s)
    unfold execLatchTimerExpiry
    split
    · exact .next ((h.waitUntil _).modCh_unread rfl rfl)
    · exact .next h
  | startSpacingExpiry =>
    change leavesCoherent (execStartSpacingExpiry s)
    unfold execStartSpacingExpiry
    split
    · exact .next (h.rest rfl rfl rfl rfl)
    · exact .next h
  | strikeWindowExpiry c =>
    change leavesCoherent (execStrikeWindowExpiry c s)
    unfold execStrikeWindowExpiry
    split
    · exact .flush ((h.waitUntil _).modCh_unread rfl rfl)
    · exact .next h
  | stagingTimerExpiry =>
    change leavesCoherent (execStagingTimerExpiry s)
    unfold execStagingTimerExpiry
    split
    · exact .next (h.rest rfl rfl rfl rfl)
    · exact .next h
  | vehicleDataHoldExpiry =>
    change leavesCoherent (execVehicleDataHoldExpiry s)
    unfold execVehicleDataHoldExpiry
    split
    · next d _ =>
      have hClear : State.coherent { s.waitUntil d with vehicleTimer := none } := h.rest rfl rfl rfl rfl
      exact .next (hClear.setRoughness 0)
    · exact .next h
  | configIdleExpiry =>
    change leavesCoherent (execConfigIdleExpiry s)
    unfold execConfigIdleExpiry
    split
    · exact .next (h.waitUntil _).leaveConfig
    · exact .next h
  | busQuietExpiry =>
    change leavesCoherent (execBusQuietExpiry s)
    unfold execBusQuietExpiry
    split
    · exact .next (h.rest rfl rfl rfl rfl)
    · exact .next h
  | holdLimitExpiry =>
    change leavesCoherent (execHoldLimitExpiry s)
    unfold execHoldLimitExpiry
    split
    · exact .flush (h.waitUntil _).expireHoldLimit
    · exact .next h
  | runTimeLimitExpiry c =>
    change leavesCoherent (execRunTimeLimitExpiry c s)
    unfold execRunTimeLimitExpiry
    split
    · exact .flush ((h.waitUntil _).runLimitReached c)
    · exact .next h
  | _ => exact hi.elim

/-- The bus side of the port. -/
theorem State.coherent.exec_bus (h : s.coherent) {i : Instr} (hi : match i with
    | .frameReceived _ | .unknownRequest | .readoutFrameHanded | .txOffer | .txSent | .txLostArbitration | .txError =>
      True
    | _ => False) : leavesCoherent (exec i s) := by
  cases i with
  | frameReceived f =>
    change leavesCoherent (execFrameReceived f s)
    unfold execFrameReceived
    split
    · exact .next h
    · split
      · exact .next h
      · exact .next (h.place _ _)
  | unknownRequest =>
    change leavesCoherent (execUnknownRequest s)
    unfold execUnknownRequest
    split
    · next r rest _ _ =>
      have hTaken : State.coherent { s with normal := rest } := h.rest rfl rfl rfl rfl
      split
      · exact .next (State.coherent.conclude hTaken ..)
      · exact .next h
    · exact .next h
  | readoutFrameHanded => exact .next h.handReadout
  | txOffer =>
    change leavesCoherent (execTxOffer s)
    unfold execTxOffer
    split
    · split
      · exact .next (h.rest rfl rfl rfl rfl)
      · exact .next h
    · exact .next h
  | txSent =>
    change leavesCoherent (execTxSent s)
    unfold execTxSent
    split
    · exact .next (h.txLeave.rest rfl rfl rfl rfl)
    · exact .next h
  | txLostArbitration =>
    change leavesCoherent (execTxLostArbitration s)
    unfold execTxLostArbitration
    split
    · exact .next (h.rest rfl rfl rfl rfl)
    · exact .next h
  | txError =>
    change leavesCoherent (execTxError s)
    unfold execTxError
    split
    · exact .next h.txLeave.raiseErrors
    · exact .next h
  | _ => exact hi.elim

theorem State.coherent.exec (h : s.coherent) (i : Instr) : leavesCoherent (Machine.exec i s) := by
  cases i with
  | reset pins => exact .next ((atReset_coherent pins).rest rfl rfl rfl rfl)
  | hallTransition c a b n => exact .flush (h.sampleHall c a b n)
  | stripAsserted c l n => exact .flush (h.sampleStrip c l n)
  | batterySample code =>
    have hWaited : State.coherent { s.waitUntil s.nextSample with nextSample := s.nextSample + 1 } :=
      h.rest rfl rfl rfl rfl
    exact .flush (hWaited.takeSample _)
  | holdAsserted n => exact .flush (h.sampleHold true n)
  | holdReleased n => exact .flush (h.sampleHold false n)
  | statusPeriodExpiry =>
    have hWaited : State.coherent { s.waitUntil s.statusTimer with
        statusTimer := (s.waitUntil s.statusTimer).ms + s.globals.statusPeriod } := h.rest rfl rfl rfl rfl
    exact .flush (hWaited.forChans_unread (f := fun ch => { ch with statusDue := true }) (fun _ => rfl) fun _ => rfl)
  | stallTimerExpiry c => exact h.stallTimerExpiry c
  | rampEnd c => exact (h.rampTimers c).1
  | rampDutyRecompute c => exact (h.rampTimers c).2
  | brakeExpiry c => exact h.brakeExpiry c
  | holdTimerExpiry c => exact h.holdTimerExpiry c
  | admission => exact h.admission
  | latchTimerExpiry | startSpacingExpiry | strikeWindowExpiry | stagingTimerExpiry | vehicleDataHoldExpiry
  | configIdleExpiry | busQuietExpiry | holdLimitExpiry | runTimeLimitExpiry => exact h.exec_guard trivial
  | frameReceived | unknownRequest | readoutFrameHanded | txOffer | txSent | txLostArbitration | txError =>
    exact h.exec_bus trivial
  | stop =>
    change leavesCoherent (execStop s)
    unfold execStop
    split
    · next r rest _ =>
      have hTaken : State.coherent { s with urgent := rest } := h.rest rfl rfl rfl rfl
      exact .flush (hTaken.stopMask _)
    · exact .next h
  | move => exact .next (h.serve .move fun slot d _ hs => hs.handleMove slot d)
  | group => exact .next (h.serve .group fun slot d _ hs => hs.handleGroup slot d)
  | reference => exact .next (h.serve .reference fun slot d _ hs => hs.handleReference slot d)
  | lockout => exact .next (h.serve .lockout fun slot d _ hs => hs.handleLockout slot d)
  | query => exact .next (h.serve .query fun slot d _ hs => hs.handleQuery slot d)
  | vehicle => exact .next (h.serve .vehicle fun slot d _ hs => hs.handleVehicle slot d)
  | profileRead => exact .next (h.serve .profileRead fun slot d _ hs => hs.handleProfileRead slot d)
  | restoreBegin => exact .next (h.serve .restoreBegin fun slot d _ hs => hs.handleRestoreBegin slot d)
  | restoreData => exact .next (h.serve .restoreData fun slot d _ hs => hs.handleRestoreData slot d)
  | restoreEnd => exact .next (h.serve .restoreEnd fun slot d _ hs => hs.handleRestoreEnd slot d)
  | incidentRead => exact .next (h.serve .incidentRead fun slot d _ hs => hs.handleIncidentRead slot d)
  | clear => exact .next (h.serve .clear fun slot d _ hs => hs.handleClear slot d)
  | config => exact .next (h.serve .config fun slot d _ hs => hs.handleConfig slot d)
  | start => exact .next (h.serve .start fun slot d _ hs => hs.handleStart slot d)
  | tune => exact .next (h.serve .tune fun slot d _ hs => hs.handleTune slot d)

end

/-- Settles O6: each command keeps the agreement of every channel with its record, bridge, timers and owner, and of the
channels with the start queue, the hold line and the part state. -/
theorem drivesStayCoherent : Obligations.DrivesStayCoherent := by
  unfold Obligations.DrivesStayCoherent
  intro s t h hStep
  unfold step at hStep
  split at hStep
  · cases hStep
    exact h.rest rfl rfl rfl rfl
  · next i rest _ =>
    exact State.coherent.exec (s := { s with pending := rest }) (h.rest rfl rfl rfl rfl) i t hStep

end Sys2Proof.Machine
end
